-- ==== Sys2Proof/Word.lean ====
section
/-! DEFINITION. The words of the core: the byte (R9, R50), the 16-bit code (R24, R71) and the REAL (R8, R164). -/

namespace Sys2Proof

/-- A byte: bits 7 (most significant) down to 0 (R9). -/
abbrev Byte := BitVec 8

/-- A 16-bit value: a state-select or register code (R71), or a measurement code16 (R12). -/
abbrev Code := BitVec 16

/-- The REAL type of the reference: exact rationals (R8, R164). -/
abbrev REAL := Rat

/-- What `DrawUnit()` may answer: a REAL `u` with `0 <= u < 1` (R5); the type excludes any other answer (R233). -/
abbrev UnitReal := { u : REAL // 0 ≤ u ∧ u < 1 }

/-- `zext_16(v)`: an 8-bit value zero-extended to 16 bits (R9). -/
abbrev zext16 (v : Byte) : Code := v.setWidth 16

/-- `trunc_8(v)`: `v mod 256` (R9). -/
abbrev trunc8 {w : Nat} (v : BitVec w) : Byte := v.setWidth 8

end Sys2Proof
end

