-- ==== Sys2Proof/Config.lean ====
section
/-! DEFINITION. The implementation parameters of R8, and the free values: constants with no body that no proof can evaluate. -/

namespace Sys2Proof

/-- `FRAME_LAYOUT` (R8): how the bytes of a write map to its fields (R72 to R77). -/
inductive FrameLayout where
  | coded
  | positional
deriving DecidableEq, Repr

/-- `ROUND_TIES` (R8, R156): what `Round` does with a fractional part of exactly one half. -/
inductive RoundTies where
  | halfUp
  | halfEven
deriving DecidableEq, Repr

/-- `REAL` (R8, R164): `exact` is the reference over the rationals; `withinOne` covers the implementations whose rounded
code is within 1 of the exact one, the error being a free value. -/
inductive RealKind where
  | exact
  | withinOne
deriving DecidableEq, Repr

/-- The named parameters of R8 with the values the spec takes. `RNG`, unconstrained draws in range, is no field here: the
draws are scripted in `State.rng` or free (`Config.freeInt10`, `Config.freeUnit`). -/
structure Params where
  frameLayout    : FrameLayout := .coded
  defaultPayload : List Byte   := [0x00#8]
  resetResponse  : List Byte   := []
  roundTies      : RoundTies   := .halfUp
  real           : RealKind    := .exact
  maxWriteLen    : Option Nat  := none
  diag           : Bool        := true
deriving DecidableEq, Repr

/-- The types R8 gives the two byte sequences: `DEFAULT_PAYLOAD` has length 0 to 9, `RESET_RESPONSE` length 0 to 10. -/
abbrev Params.wf (p : Params) : Prop :=
  p.defaultPayload.length ≤ 9 ∧ p.resetResponse.length ≤ 10

/-- FREE VALUE (R165): what draw number `n` of the random source answers if it is a `DrawInt10()`; log entry 16. -/
opaque Config.freeInt10 : Nat → Fin 10

/-- FREE VALUE (R165): a REAL whose fractional part is the answer of draw `n` if it is a `DrawUnit()`; log entry 16. -/
opaque Config.freeReal : Nat → REAL

/-- The free answer of draw `n` to `DrawUnit()`: every REAL of `[0, 1)` is the fractional part of some REAL. -/
def Config.freeUnit (n : Nat) : UnitReal :=
  ⟨Int.fract (Config.freeReal n), Int.fract_nonneg _, Int.fract_lt_one _⟩

/-- FREE VALUE (R164): 1 more than the error of an inexact implementation's rounded temperature code at temperature `T`;
log entry 13. -/
opaque Config.tempCodeError : REAL → Fin 3

/-- FREE VALUE (R164): the same for the humidity code at humidity `H`; log entry 13. -/
opaque Config.humCodeError : REAL → Fin 3

end Sys2Proof
end

