-- ==== Sys2Proof/Syntax.lean ====
section
/-! DEFINITION. The instructions: one constructor per row of spec/opcode_table.json (R81, R88, R89). -/

namespace Sys2Proof

/-- What follows the register code in a write frame (R75): nothing, or the data byte and the excess bytes. -/
inductive Tail where
  | none
  | data (d : Byte) (excess : List Byte)
deriving DecidableEq, Repr

/-- The data field, where present (R71, R75). -/
def Tail.data? : Tail → Option Byte
  | .none => Option.none
  | .data d _ => some d

/-- The instructions of the core, in the order of the opcode table. A write command stands for one `WRITE` whose frame decodes
to it (R81); the last five are the port operations of R5. -/
inductive Instr where
  /-- SHORT: a write of length 0 (`none`) or 1 (R202). -/
  | short (b : Option Byte)
  /-- RD.SOFTRESET (R122). -/
  | rdSoftreset (t : Tail)
  /-- RD.USERWRITE (R123). -/
  | rdUserwrite (t : Tail)
  /-- RD.USERREAD (R124). -/
  | rdUserread (t : Tail)
  /-- RD.MEAS_POLL (R126). -/
  | rdMeasPoll (t : Tail)
  /-- RD.MEAS_HM (R125). -/
  | rdMeasHm (t : Tail)
  /-- RD.OCM1 (R127). -/
  | rdOcm1 (t : Tail)
  /-- RD.OCM2 (R128). -/
  | rdOcm2 (t : Tail)
  /-- RD.OTHER (R129): an unrecognized register code, or none at all (the frame `F3 2D`, R76). -/
  | rdOther (code : Option Code) (t : Tail)
  /-- SD.USERREAD (R131). -/
  | sdUserread (t : Tail)
  /-- SD.MEAS_HM (R132). -/
  | sdMeasHm (t : Tail)
  /-- SD.OCM1 (R133). -/
  | sdOcm1 (t : Tail)
  /-- SD.OCM2 (R134). -/
  | sdOcm2 (t : Tail)
  /-- SD.OTHER (R135): any register code without a SendingData response of its own. -/
  | sdOther (code : Code) (t : Tail)
  /-- IDLE.ANY (R137). -/
  | idleAny (code : Code) (t : Tail)
  /-- UNK.ANY (R138). -/
  | unkAny (sel code : Code) (t : Tail)
  /-- WRITE (R101): the bus port's operation on a raw byte sequence of any length. -/
  | write (b : List Byte)
  /-- READ (R102). -/
  | read (count : Int)
  /-- RESET (R100). -/
  | reset
  /-- SET_MEAN_HUMIDITY (R103). -/
  | setMeanHumidity (v : REAL)
  /-- GET_MEAN_HUMIDITY (R104). -/
  | getMeanHumidity
deriving DecidableEq, Repr

/-- The two ports an operation can come in by (R5, R211); at the third, the RNG port, the core is the client. -/
inductive Port where
  | bus
  | host
deriving DecidableEq, Repr

/-- The port of each operation (R5): every write command is a `WRITE`, so it comes in by the bus port. -/
def Instr.port : Instr → Port
  | .reset => .host
  | .setMeanHumidity _ => .host
  | .getMeanHumidity => .host
  | .short _ => .bus
  | .rdSoftreset _ => .bus
  | .rdUserwrite _ => .bus
  | .rdUserread _ => .bus
  | .rdMeasPoll _ => .bus
  | .rdMeasHm _ => .bus
  | .rdOcm1 _ => .bus
  | .rdOcm2 _ => .bus
  | .rdOther _ _ => .bus
  | .sdUserread _ => .bus
  | .sdMeasHm _ => .bus
  | .sdOcm1 _ => .bus
  | .sdOcm2 _ => .bus
  | .sdOther _ _ => .bus
  | .idleAny _ _ => .bus
  | .unkAny _ _ _ => .bus
  | .write _ => .bus
  | .read _ => .bus

/-- The three protocol phases, the values of the register `state` (R21). -/
inductive Phase where
  | idle
  | receivingData
  | sendingData
deriving DecidableEq, Repr

/-- The 16-bit code the source prints for each phase (R21, R78). -/
def Phase.code : Phase → Code
  | .idle => 0x0000#16
  | .receivingData => 0xF32D#16
  | .sendingData => 0x00FC#16

/-- The seven recognized register codes by the source's names (R79). -/
abbrev codeSoftReset : Code := 0x30A2#16
abbrev codeUserWrite : Code := 0x00E6#16
abbrev codeUserRead : Code := 0x00E7#16
abbrev codeTempHumHM : Code := 0x002C#16
abbrev codeTempHumPoll : Code := 0x2C06#16
abbrev codeOnChipMemory1 : Code := 0x00FA#16
abbrev codeOnChipMemory2 : Code := 0x00FC#16

/-- The state-select codes (R78). -/
abbrev selIdle : Code := 0x0000#16
abbrev selReceivingData : Code := 0xF32D#16
abbrev selSendingData : Code := 0x00FC#16

/-- The closed set of recognized register identifiers (R57, R79). -/
def recognized : List Code :=
  [codeSoftReset, codeUserWrite, codeUserRead, codeTempHumHM, codeTempHumPoll, codeOnChipMemory1, codeOnChipMemory2]

/-- The register codes that have a SendingData response of their own (R57, R135). -/
def hasResponse : List Code :=
  [codeUserRead, codeTempHumHM, codeOnChipMemory1, codeOnChipMemory2]

end Sys2Proof
end

