-- ==== Sys2Proof/WellFormed.lean ====
section
/-! DEFINITION. Which terms of `Instr` a frame can carry, under each frame layout (R72 to R77, R81, R84). -/

namespace Sys2Proof

/-- A register code followed by `t` parses back to itself. Under CODED only `30 A2` and `2C 06` are two-byte codes (R74), so
`0x0030` with data `0xA2` and `0x002C` with data `0x06` are other codes (R84); under POSITIONAL a code is one byte (R77). -/
def codeFits (l : FrameLayout) (code : Code) (t : Tail) : Bool :=
  match l with
  | .coded =>
    (code.ule 0x00FF#16 || code == codeSoftReset || code == codeTempHumPoll)
      && !(code == 0x0030#16 && t.data? == some 0xA2#8) && !(code == codeTempHumHM && t.data? == some 0x06#8)
  | .positional => code.ule 0x00FF#16

/-- An unrecognized state-select that one byte encodes; under CODED `F3` followed by `2D` is ReceivingData (R73, R78). -/
def selFits (l : FrameLayout) (sel code : Code) : Bool :=
  sel.ule 0x00FF#16 && sel != selIdle && sel != selSendingData
    && !(l == .coded && sel == 0x00F3#16 && code == 0x002D#16)

/-- An instruction some frame of this layout decodes to (R81), or a port operation (R88). -/
def wellFormed (l : FrameLayout) : Instr → Bool
  | .short _ => true
  | .rdSoftreset _ => l == .coded
  | .rdUserwrite _ => l == .coded
  | .rdUserread _ => l == .coded
  | .rdMeasPoll _ => l == .coded
  | .rdMeasHm t => l == .coded && codeFits l codeTempHumHM t
  | .rdOcm1 _ => l == .coded
  | .rdOcm2 _ => l == .coded
  | .rdOther none t => l == .coded && t == .none
  | .rdOther (some code) t => l == .coded && codeFits l code t && !recognized.contains code
  | .sdUserread _ => true
  | .sdMeasHm t => codeFits l codeTempHumHM t
  | .sdOcm1 _ => true
  | .sdOcm2 _ => true
  | .sdOther code t => codeFits l code t && !hasResponse.contains code
  | .idleAny code t => codeFits l code t
  | .unkAny sel code t => selFits l sel code && codeFits l code t
  | .write _ => true
  | .read _ => true
  | .reset => true
  | .setMeanHumidity _ => true
  | .getMeanHumidity => true

/-- What the transport may deliver (R8, `MAX_WRITE_LEN`): a write no longer than the bound. -/
def deliverable (p : Params) (b : List Byte) : Bool :=
  match p.maxWriteLen with
  | none => true
  | some m => b.length ≤ m

end Sys2Proof
end

