-- ==== Sys2Proof/Decode.lean ====
section
/-! DEFINITION. Decoding a write frame (R70 to R77, R81), total on any bytes: "No encoding of the state-select traps" (R82) and
"unrecognized codes are a no-op, not an error" (R83), so no frame is rejected. After it the encoder, from the same tables
(R72, R78, R79), and the opcode table as R89 reads it. -/

namespace Sys2Proof

/-! ## Parsing (R70 to R77) -/

/-- R75: `j < n` makes `b[j]` the data field; the bytes after it are the excess. -/
def Tail.ofBytes : List Byte → Tail
  | [] => .none
  | d :: excess => .data d excess

/-- R73, `ParseState(b, n)`: the state-select and the bytes from the next index on. Precondition: at least 2 bytes. -/
def parseState : List Byte → Code × List Byte
  | [] => (selIdle, [])
  | [b0] => (zext16 b0, [])
  | b0 :: b1 :: rest =>
    if b0 = 0xF3#8 ∧ b1 = 0x2D#8 then (selReceivingData, rest) else (zext16 b0, b1 :: rest)

/-- R74, `ParseReg(b, n, i)`, longest match first: the register code and the bytes from the next index on, or `none` where
no byte is left (R76). -/
def parseReg : List Byte → Option (Code × List Byte)
  | [] => none
  | [b0] => some (zext16 b0, [])
  | b0 :: b1 :: rest =>
    if b0 = 0x30#8 ∧ b1 = 0xA2#8 then some (codeSoftReset, rest)
    else if b0 = 0x2C#8 ∧ b1 = 0x06#8 then some (codeTempHumPoll, rest)
    else some (zext16 b0, b1 :: rest)

/-- The fields of a frame (R71): too short to be parsed (R70), a state-select with no register field (R76), or
state-select, register code and tail. -/
inductive Fields where
  | short (b : Option Byte)
  | noRegister (sel : Code)
  | full (sel code : Code) (t : Tail)
deriving DecidableEq, Repr

/-- The CODED parse (R73 to R76) of a frame of length 2 or more. -/
def parseCoded (b : List Byte) : Fields :=
  match parseReg (parseState b).2 with
  | none => .noRegister (parseState b).1
  | some (code, rest) => .full (parseState b).1 code (Tail.ofBytes rest)

/-- The POSITIONAL parse (R77) of `b0 b1 ..`. -/
def parsePositional (b0 b1 : Byte) (rest : List Byte) : Fields :=
  .full (zext16 b0) (zext16 b1) (Tail.ofBytes rest)

/-- R70, R71: the length test on raw bytes, then the parse of the layout. -/
def parseFrame (l : FrameLayout) : List Byte → Fields
  | [] => .short none
  | [b0] => .short (some b0)
  | b0 :: b1 :: rest =>
    match l with
    | .coded => parseCoded (b0 :: b1 :: rest)
    | .positional => parsePositional b0 b1 rest

/-! ## The command map (R81), first match wins -/

/-- Rows 1 to 8 of R81: `sel = 0xF32D`. -/
def rdCommand (code : Code) (t : Tail) : Instr :=
  if code = codeSoftReset then .rdSoftreset t
  else if code = codeUserWrite then .rdUserwrite t
  else if code = codeUserRead then .rdUserread t
  else if code = codeTempHumPoll then .rdMeasPoll t
  else if code = codeTempHumHM then .rdMeasHm t
  else if code = codeOnChipMemory1 then .rdOcm1 t
  else if code = codeOnChipMemory2 then .rdOcm2 t
  else .rdOther (some code) t

/-- Rows 9 to 13 of R81: `sel = 0x00FC`. -/
def sdCommand (code : Code) (t : Tail) : Instr :=
  if code = codeUserRead then .sdUserread t
  else if code = codeTempHumHM then .sdMeasHm t
  else if code = codeOnChipMemory1 then .sdOcm1 t
  else if code = codeOnChipMemory2 then .sdOcm2 t
  else .sdOther code t

/-- The command of R81 that the parsed fields select; `short` decodes to no command but to SHORT (R81, R202). -/
def command : Fields → Instr
  | .short b => .short b
  | .noRegister _ => .rdOther none .none
  | .full sel code t =>
    if sel = selReceivingData then rdCommand code t
    else if sel = selSendingData then sdCommand code t
    else if sel = selIdle then .idleAny code t
    else .unkAny sel code t

/-- The decoder: the one instruction a write of these bytes executes (R81). -/
def decode (l : FrameLayout) (b : List Byte) : Instr :=
  command (parseFrame l b)

/-! ## The encoder (R72, R75, R78, R79) -/

/-- R72: a code up to `0x00FF` is its low byte, a code above it its high byte and then its low byte (R51). -/
def codeBytes (code : Code) : List Byte :=
  if code.ule 0x00FF#16 then [trunc8 code] else [trunc8 (code >>> 8), trunc8 code]

/-- R75: the data byte and the excess, as sent. -/
def Tail.bytes : Tail → List Byte
  | .none => []
  | .data d excess => d :: excess

/-- The frame of a state-select, a register code and a tail (R71, R80). -/
def frame (sel code : Code) (t : Tail) : List Byte :=
  codeBytes sel ++ codeBytes code ++ t.bytes

/-- The bytes of an instruction, the same in both layouts (R77); the five port operations have no byte encoding (R88). -/
def encode : Instr → Option (List Byte)
  | .short none => some []
  | .short (some b) => some [b]
  | .rdSoftreset t => some (frame selReceivingData codeSoftReset t)
  | .rdUserwrite t => some (frame selReceivingData codeUserWrite t)
  | .rdUserread t => some (frame selReceivingData codeUserRead t)
  | .rdMeasPoll t => some (frame selReceivingData codeTempHumPoll t)
  | .rdMeasHm t => some (frame selReceivingData codeTempHumHM t)
  | .rdOcm1 t => some (frame selReceivingData codeOnChipMemory1 t)
  | .rdOcm2 t => some (frame selReceivingData codeOnChipMemory2 t)
  | .rdOther none t => some (codeBytes selReceivingData ++ t.bytes)
  | .rdOther (some code) t => some (frame selReceivingData code t)
  | .sdUserread t => some (frame selSendingData codeUserRead t)
  | .sdMeasHm t => some (frame selSendingData codeTempHumHM t)
  | .sdOcm1 t => some (frame selSendingData codeOnChipMemory1 t)
  | .sdOcm2 t => some (frame selSendingData codeOnChipMemory2 t)
  | .sdOther code t => some (frame selSendingData code t)
  | .idleAny code t => some (frame selIdle code t)
  | .unkAny sel code t => some (frame sel code t)
  | .write _ => none
  | .read _ => none
  | .reset => none
  | .setMeanHumidity _ => none
  | .getMeanHumidity => none

/-! ## The opcode table as R89 reads it -/

/-- The mnemonic of an instruction's row in the opcode table. -/
def Instr.mnemonic : Instr → String
  | .short _ => "SHORT"
  | .rdSoftreset _ => "RD.SOFTRESET"
  | .rdUserwrite _ => "RD.USERWRITE"
  | .rdUserread _ => "RD.USERREAD"
  | .rdMeasPoll _ => "RD.MEAS_POLL"
  | .rdMeasHm _ => "RD.MEAS_HM"
  | .rdOcm1 _ => "RD.OCM1"
  | .rdOcm2 _ => "RD.OCM2"
  | .rdOther _ _ => "RD.OTHER"
  | .sdUserread _ => "SD.USERREAD"
  | .sdMeasHm _ => "SD.MEAS_HM"
  | .sdOcm1 _ => "SD.OCM1"
  | .sdOcm2 _ => "SD.OCM2"
  | .sdOther _ _ => "SD.OTHER"
  | .idleAny _ _ => "IDLE.ANY"
  | .unkAny _ _ _ => "UNK.ANY"
  | .write _ => "WRITE"
  | .read _ => "READ"
  | .reset => "RESET"
  | .setMeanHumidity _ => "SET_MEAN_HUMIDITY"
  | .getMeanHumidity => "GET_MEAN_HUMIDITY"

/-- The number that some bytes spell, the first byte being the most significant (R89). -/
def bigEndian (b : List Byte) : Nat :=
  b.foldl (fun n d => n * 256 + d.toNat) 0

/-- A byte pattern of the opcode table: `(leading len bytes) & mask = match` (R89). -/
structure Pattern where
  value : Nat
  mask  : Nat
  len   : Nat
deriving DecidableEq, Repr

def Pattern.hits (p : Pattern) (b : List Byte) : Bool :=
  p.len ≤ b.length && (bigEndian (b.take p.len) &&& p.mask) == p.value

/-- A row of the opcode table that has a byte pattern (R89). -/
structure OpcodeRow where
  mnemonic : String
  pattern  : Pattern
  minLen   : Nat
  exclude  : List Pattern := []
  coded    : Bool := false
deriving DecidableEq, Repr

/-- R89: a row with a `layout` of CODED holds under that layout only, and no `exclude` applies under POSITIONAL. -/
def OpcodeRow.hits (r : OpcodeRow) (l : FrameLayout) (b : List Byte) : Bool :=
  r.minLen ≤ b.length && r.pattern.hits b
    && (match l with
        | .coded => !r.exclude.any (·.hits b)
        | .positional => !r.coded)

/-- The ReceivingData rows of opcode_table.json, in file order. -/
def rdRows : List OpcodeRow :=
  [ { mnemonic := "RD.SOFTRESET", pattern := ⟨0xF32D30A2, 0xFFFFFFFF, 4⟩, minLen := 4, coded := true },
    { mnemonic := "RD.USERWRITE", pattern := ⟨0xF32DE6, 0xFFFFFF, 3⟩, minLen := 3, coded := true },
    { mnemonic := "RD.USERREAD", pattern := ⟨0xF32DE7, 0xFFFFFF, 3⟩, minLen := 3, coded := true },
    { mnemonic := "RD.MEAS_POLL", pattern := ⟨0xF32D2C06, 0xFFFFFFFF, 4⟩, minLen := 4, coded := true },
    { mnemonic := "RD.MEAS_HM", pattern := ⟨0xF32D2C, 0xFFFFFF, 3⟩, minLen := 3, coded := true },
    { mnemonic := "RD.OCM1", pattern := ⟨0xF32DFA, 0xFFFFFF, 3⟩, minLen := 3, coded := true },
    { mnemonic := "RD.OCM2", pattern := ⟨0xF32DFC, 0xFFFFFF, 3⟩, minLen := 3, coded := true },
    { mnemonic := "RD.OTHER", pattern := ⟨0xF32D, 0xFFFF, 2⟩, minLen := 2, coded := true } ]

/-- The SendingData, Idle and unrecognized rows of opcode_table.json, in file order. -/
def otherRows : List OpcodeRow :=
  [ { mnemonic := "SD.USERREAD", pattern := ⟨0xFCE7, 0xFFFF, 2⟩, minLen := 2 },
    { mnemonic := "SD.MEAS_HM", pattern := ⟨0xFC2C, 0xFFFF, 2⟩, minLen := 2, exclude := [⟨0xFC2C06, 0xFFFFFF, 3⟩] },
    { mnemonic := "SD.OCM1", pattern := ⟨0xFCFA, 0xFFFF, 2⟩, minLen := 2 },
    { mnemonic := "SD.OCM2", pattern := ⟨0xFCFC, 0xFFFF, 2⟩, minLen := 2 },
    { mnemonic := "SD.OTHER", pattern := ⟨0xFC, 0xFF, 1⟩, minLen := 2 },
    { mnemonic := "IDLE.ANY", pattern := ⟨0x00, 0xFF, 1⟩, minLen := 2 },
    { mnemonic := "UNK.ANY", pattern := ⟨0x00, 0x00, 1⟩, minLen := 2 } ]

/-- The mnemonic of the first row, in file order, that a frame matches (R89); SHORT is the row of at most 1 byte. -/
def tableMnemonic (l : FrameLayout) (b : List Byte) : Option String :=
  if b.length ≤ 1 then some "SHORT"
  else ((rdRows ++ otherRows).find? (·.hits l b)).map (·.mnemonic)

/-! ## Table words, for the host's questions -/

/-- The `k` low bytes of `w`, most significant first: the leading bytes of a frame as R89 numbers a row's pattern ("the
first byte being the most significant"); log entry 24. -/
def wordBytes : Nat → Nat → List Byte
  | 0, _ => []
  | k + 1, w => BitVec.ofNat 8 (w / 256 ^ k) :: wordBytes k w

/-- The frame of a table word. A row of one byte needs two (`min_len` 2): the byte the table gives no bits is zero. -/
def tableFrame (nbits w : Nat) : List Byte :=
  if nbits = 8 then wordBytes 1 w ++ [0x00#8] else wordBytes (nbits / 8) w

/-- The instruction the decoder reads from the bits `w` of a table row, under the default layout. -/
def decodeTableWord (nbits w : Nat) : Option Instr :=
  if nbits % 8 = 0 ∧ w < 2 ^ nbits then some (decode .coded (tableFrame nbits w)) else none

end Sys2Proof
end

