-- ==== Sys2Proof/Machine/State.lean ====
section
/-! DEFINITION. The state: the eight architectural registers of R20, the configuration of R8, and what stands at the core's
ports (log entries 16, 20, 21, 22, 23). Plain data. -/

namespace Sys2Proof.Machine

/-- A measurement as packed into two bytes (R26, R27): `hi` is sent first (R52). -/
structure Packed where
  hi : Byte
  lo : Byte
deriving DecidableEq, Repr

/-- The whole architectural state of the core: "the eight registers below and nothing else" (R20). -/
structure Registers where
  state               : Phase
  userRegister        : Byte
  registerAddress     : Code
  registerData        : Byte
  lastTemperatureCode : Packed
  lastHumidityCode    : Packed
  pendingResponse     : List Byte
  meanHumidity        : REAL
deriving DecidableEq, Repr

/-- One answer of the RNG port (R5, R12, R165). -/
inductive Draw where
  | int10 (k : Fin 10)
  | unit (u : UnitReal)
deriving DecidableEq, Repr

/-- The RNG port: the answers the test bench has scripted (R86, `DRAW`) and how many draws the core has consumed. -/
structure RngPort where
  script : List Draw
  drawn  : Nat
deriving DecidableEq, Repr

/-- The five operations of R5 as their callers present them. -/
inductive PortOp where
  | write (b : List Byte)
  | read (count : Int)
  | reset
  | setMeanHumidity (v : REAL)
  | getMeanHumidity
deriving DecidableEq, Repr

/-- What arrives at the ports: one operation, or a second one that starts before the first has ended (R61). -/
inductive Arrival where
  | one (op : PortOp)
  | overlapping (first second : PortOp)
deriving DecidableEq, Repr

/-- What an operation returns to its caller (R5, column "result"). -/
inductive OpResult where
  | none
  | bytes (b : List Byte)
  | real (v : REAL)
deriving DecidableEq, Repr

/-- The quantity a saturation concerned (R201, cause 4). -/
inductive Quantity where
  | temperature
  | humidity
deriving DecidableEq, Repr

/-- The diagnostic event of an operation, cause and info (R201); `none` is cause 0. -/
inductive DiagEvent where
  | none
  | shortWrite (n : Nat)
  | unknownState (sel : Code)
  | unknownCode (code : Option Code)
  | rangeSaturated (q : Quantity) (unsaturated : Int)
deriving DecidableEq, Repr

/-- The registers, the fixed configuration and the ports. -/
structure State where
  regs     : Registers
  params   : Params
  arrivals : List Arrival
  rng      : RngPort
  result   : OpResult
  diag     : DiagEvent
deriving DecidableEq, Repr

/-- No fault exists: "No operation fails, faults, traps, hangs or returns an error" (R200). -/
inductive Fault : Type
deriving DecidableEq, Repr

/-- Why a step has no next state. -/
inductive Refusal where
  /-- Raised by `exec` for an instruction without a meaning (safe); no arm of this model raises it. -/
  | notModelled (mnemonic : String)
  /-- Raised by the step where an operation starts before another has ended: it "has no step" (R61, D20). Safe. -/
  | concurrentInvocation
  /-- Raised by the step for a write longer than `MAX_WRITE_LEN`, which the transport may not deliver (R8, D11). Safe; with
  the default, unbounded, it is never raised (log entry 11). -/
  | undeliverableWrite (length : Nat)
deriving DecidableEq, Repr

/-- The registers after reset, as R35 lists them; the values marked D2 to D5 there are in log entries 2, 4, 5 and 6. -/
def Registers.reset (p : Params) : Registers where
  state               := .idle
  userRegister        := 0x3A#8
  registerAddress     := 0x0000#16
  registerData        := 0x00#8
  lastTemperatureCode := ⟨0x00#8, 0x00#8⟩
  lastHumidityCode    := ⟨0x00#8, 0x00#8⟩
  pendingResponse     := p.resetResponse
  meanHumidity        := 80

/-- The machine right after power-on (R230): the registers of R35, every parameter at the spec's default (R8), nothing at
the ports (log entries 16, 20, 22). -/
def State.reset : State where
  regs     := Registers.reset {}
  params   := {}
  arrivals := []
  rng      := ⟨[], 0⟩
  result   := .none
  diag     := .none

end Sys2Proof.Machine
end

