-- ==== Sys2Proof/Machine/Ops.lean ====
section
/-! DEFINITION. The named operations over the registers and the ports: reset (R35), the response buffer (R10, R28), draws
(R5, R165), what an operation returns, and what stands in the place of taking an exception (R10, R201, R208). -/

namespace Sys2Proof.Machine

/-- How an operation answers; it always does (R200). -/
abbrev Answer := Host.Outcome State Fault Refusal

/-- `ResetState()` (R35): every register of R20 at once. It draws nothing and leaves the parameters and the ports. -/
def resetState (s : State) : State :=
  { s with regs :=
      { state               := .idle
        userRegister        := 0x3A#8
        registerAddress     := 0x0000#16
        registerData        := 0x00#8
        lastTemperatureCode := ⟨0x00#8, 0x00#8⟩
        lastHumidityCode    := ⟨0x00#8, 0x00#8⟩
        pendingResponse     := s.params.resetResponse
        meanHumidity        := 80 } }

/-- `state <- phase`. -/
def setPhase (phase : Phase) (s : State) : State :=
  { s with regs := { s.regs with state := phase } }

/-- `registerAddress <- code`. -/
def setAddress (code : Code) (s : State) : State :=
  { s with regs := { s.regs with registerAddress := code } }

/-- `registerData <- data`. -/
def setData (data : Byte) (s : State) : State :=
  { s with regs := { s.regs with registerData := data } }

/-- `userRegister <- v`, all 8 bits, no mask (R22). -/
def setUser (v : Byte) (s : State) : State :=
  { s with regs := { s.regs with userRegister := v } }

/-- `lastTemperatureCode <- p`. -/
def setTemperature (p : Packed) (s : State) : State :=
  { s with regs := { s.regs with lastTemperatureCode := p } }

/-- `lastHumidityCode <- p`. -/
def setHumidity (p : Packed) (s : State) : State :=
  { s with regs := { s.regs with lastHumidityCode := p } }

/-- `pendingResponse <- r`: only ever replaced whole (R10, R55). -/
def setResponse (r : List Byte) (s : State) : State :=
  { s with regs := { s.regs with pendingResponse := r } }

/-- `meanHumidity <- v`, no validation (R29). -/
def setMean (v : REAL) (s : State) : State :=
  { s with regs := { s.regs with meanHumidity := v } }

/-- `MemRead(i, n)`: bytes `i .. i+n-1` of `pendingResponse`, the only byte-addressed storage (R10). -/
def memRead (i n : Nat) (s : State) : List Byte :=
  (s.regs.pendingResponse.drop i).take n

/-- What the operation returns to its caller (R5). -/
def returning (r : OpResult) (s : State) : State :=
  { s with result := r }

/-- The start of an operation: nothing returned yet, and, with `DIAG` on, cause code 0, no anomaly (R201). -/
def beginOp (s : State) : State :=
  { s with result := .none, diag := if s.params.diag then .none else s.diag }

/-- `raise <Anomaly>(info)` (R10, R201): records the event where `DIAG` is on and writes no register: "Trap entry is empty" (R208),
and nothing is entered, so nothing is left (R209). One event per operation: the one first in R207's order is kept (log entry 21). -/
def raiseAnomaly (e : DiagEvent) (s : State) : State :=
  { s with diag := if s.params.diag ∧ s.diag = .none then e else s.diag }

/-- The random source moves on by one draw. -/
def advanceRng (s : State) : State :=
  { s with rng := ⟨s.rng.script.tail, s.rng.drawn + 1⟩ }

/-- The answer of the next draw if it is `DrawInt10()` (R5): the scripted one, else a free value in 0..9 (R165). -/
def int10Answer (s : State) : Fin 10 :=
  match s.rng.script with
  | .int10 k :: _ => k
  | _ => Config.freeInt10 s.rng.drawn

/-- The answer of the next draw if it is `DrawUnit()` (R5): the scripted one, else a free value in `[0, 1)` (R165). -/
def unitAnswer (s : State) : UnitReal :=
  match s.rng.script with
  | .unit u :: _ => u
  | _ => Config.freeUnit s.rng.drawn

end Sys2Proof.Machine
end

