-- ==== Sys2Proof/Machine/Operands.lean ====
section
/-! DEFINITION. The operands of a write: its phase (R120), its latched fields (R121), the resolution mode (R23, R157). -/

namespace Sys2Proof.Machine

/-- `phase(sel)` (R120): an unrecognized state-select is mapped to `Idle` at once (C3, D16). -/
def phaseOf (sel : Code) : Phase :=
  if sel = selReceivingData then .receivingData
  else if sel = selSendingData then .sendingData
  else .idle

/-- R121: `registerAddress <- code` if the register field is present. -/
def latchCode (code : Option Code) (s : State) : State :=
  match code with
  | none => s
  | some c => setAddress c s

/-- R121: `registerData <- data` if the data field is present, whatever follows it (R75). -/
def latchData (t : Tail) (s : State) : State :=
  match t with
  | .none => s
  | .data d _ => setData d s

/-- The lines of R101 between the length check and the dispatch, in every phase: phase, then latches. -/
def beginWrite (phase : Phase) (code : Option Code) (t : Tail) (s : State) : State :=
  latchData t (latchCode code (setPhase phase (beginOp s)))

/-- The bits of `userRegister` that select the resolution (R23). -/
def modeOf (userRegister : Byte) : Byte :=
  userRegister &&& 0x81#8

/-- `NT`, the number of temperature bits transmitted in a mode (R23, R157). -/
def temperatureBits (mode : Byte) : Nat :=
  if mode = 0x00#8 then 14
  else if mode = 0x01#8 then 12
  else if mode = 0x80#8 then 13
  else 11

/-- `NH`, the number of humidity bits transmitted in a mode (R23, R157). -/
def humidityBits (mode : Byte) : Nat :=
  if mode = 0x00#8 then 12
  else if mode = 0x01#8 then 8
  else if mode = 0x80#8 then 10
  else 11

end Sys2Proof.Machine
end

