-- ==== Sys2Proof/Machine/Flags.lean ====
section
/-! DEFINITION. The core has no flag register (R31); its only status bits are bits 1:0 of the packed low bytes (R31, R161), and the
only cause codes are those of the diagnostic event (R201). -/

namespace Sys2Proof.Machine

/-- The "fixed status pattern (`0x2`)" of a humidity low byte (R160, R161): "bit1=1 marks 'humidity type'" (R27). -/
def humidityStatus : Byte := 0x02#8

/-- Bits 1:0 of the low byte of a packed measurement (R161). -/
def statusBits (p : Packed) : BitVec 2 :=
  p.lo.setWidth 2

/-- The cause code of a diagnostic event (R201). -/
def causeCode : DiagEvent → Nat
  | .none => 0
  | .shortWrite _ => 1
  | .unknownState _ => 2
  | .unknownCode _ => 3
  | .rangeSaturated _ _ => 4

end Sys2Proof.Machine
end

