-- ==== Sys2Proof/Machine/Checksum.lean ====
section
/-! DEFINITION. The CRC-8 engine, the rolling XOR and the frame builder (43_crc_and_frame.md). -/

namespace Sys2Proof.Machine

/-- One shift of the CRC register (R180): `trunc_8((crc << 1) ^ 0x131)` if bit 7 is set, `trunc_8(crc << 1)` otherwise. -/
def crcShift (crc : Byte) : Byte :=
  if crc.getLsbD 7 then trunc8 (((crc.setWidth 9) <<< 1) ^^^ 0x131#9) else trunc8 ((crc.setWidth 9) <<< 1)

/-- `repeat n times` of R180. -/
def crcShifts : Nat → Byte → Byte
  | 0, crc => crc
  | n + 1, crc => crcShifts n (crcShift crc)

/-- One byte through the CRC register: XOR, then eight shifts (R180). -/
def crcByte (crc d : Byte) : Byte :=
  crcShifts 8 (crc ^^^ d)

/-- `CRC8(s)` (R180): initial value 0, first byte first, no final XOR (D15, log entry 17). -/
def crc8 (s : List Byte) : Byte :=
  s.foldl crcByte 0x00#8

/-- `XorSum(s)` (R182). -/
def xorSum (s : List Byte) : Byte :=
  s.foldl (· ^^^ ·) 0x00#8

/-- The two bytes of a measurement, high byte first (R52). -/
def Packed.bytes (p : Packed) : List Byte :=
  [p.hi, p.lo]

/-- `Frame6(t, h)` (R183): temperature, its CRC, humidity, its CRC (R52, R181). -/
def frame6 (t h : Packed) : List Byte :=
  [t.hi, t.lo, crc8 t.bytes, h.hi, h.lo, crc8 h.bytes]

/-- `Zeros(n)` (R9). -/
def zeros (n : Nat) : List Byte :=
  List.replicate n 0x00#8

/-- `BuildResponse(w, p)` (R184): the payload and the XOR of every byte of the write and of the payload. -/
def buildResponse (w p : List Byte) : List Byte :=
  p ++ [xorSum (w ++ p)]

/-- `pendingResponse <- BuildResponse(w, p)`. -/
def respond (w p : List Byte) (s : State) : State :=
  setResponse (buildResponse w p) s

end Sys2Proof.Machine
end

