-- ==== Sys2Proof/Machine/Synthesizer.lean ====
section
/-! DEFINITION. The measurement synthesizer (42_measurement_synthesizer.md): the noise model, the conversions, rounding and
saturation, resolution packing, and `Measure()`. -/

namespace Sys2Proof.Machine

/-- The fixed temperature mean, 25.0 degrees Celsius (R152). -/
def temperatureMean : REAL := 25

/-- The fixed temperature sigma, 1.0 (R152). -/
def temperatureSigma : REAL := 1

/-- The fixed humidity sigma, 5.0 (R154). -/
def humiditySigma : REAL := 5

/-- `Sample(mean, sigma, k, u)` (R151): the plus branch for `k >= 6`, the minus branch otherwise. -/
def sample (mean sigma : REAL) (k : Fin 10) (u : UnitReal) : REAL :=
  if 6 ≤ k.val then mean * (1 + u.val / (2 * sigma)) else mean * (1 - u.val / (2 * sigma))

/-- `Clamp(v, lo, hi)` (R154). -/
def clamp (v lo hi : REAL) : REAL :=
  if v < lo then lo else if hi < v then hi else v

/-- `Round(x)` (R156): `floor(x + 1/2)`; under `HALF_EVEN` a value exactly half way between two integers goes to the even one. -/
def roundReal (ties : RoundTies) (x : REAL) : Int :=
  match ties with
  | .halfUp => (x + 1 / 2).floor
  | .halfEven => if x - x.floor = 1 / 2 then (if x.floor % 2 = 0 then x.floor else x.floor + 1) else (x + 1 / 2).floor

/-- The error of the rounded code: none in the reference, -1, 0 or 1 in an implementation with inexact REALs (R164). -/
def codeError (kind : RealKind) (e : Fin 3) : Int :=
  match kind with
  | .exact => 0
  | .withinOne => (e.val : Int) - 1

/-- The argument of `Round` in `TempCode16` (R153). -/
def temperatureScaled (t : REAL) : REAL :=
  (t + 4685 / 100) * 65536 / (17572 / 100)

/-- The argument of `Round` in `HumCode16` (R155). -/
def humidityScaled (h : REAL) : REAL :=
  (h + 6) * 65536 / 125

/-- The integer `TempCode16` gives to `Sat16` (R153). -/
def temperatureRounded (p : Params) (t : REAL) : Int :=
  roundReal p.roundTies (temperatureScaled t) + codeError p.real (Config.tempCodeError t)

/-- The integer `HumCode16` gives to `Sat16` (R155). -/
def humidityRounded (p : Params) (h : REAL) : Int :=
  roundReal p.roundTies (humidityScaled h) + codeError p.real (Config.humCodeError h)

/-- `Sat16(n)` (R156), as an integer. -/
def sat16 (n : Int) : Int :=
  if n < 0 then 0 else if 65535 < n then 65535 else n

/-- `Sat16(n)` as the 16-bit code it is. -/
def code16 (n : Int) : Code :=
  BitVec.ofInt 16 (sat16 n)

/-- `Sat16` "raises `RangeSaturated` when it changes `n`" (R156, R205). -/
def raiseIfSaturated (q : Quantity) (n : Int) (s : State) : State :=
  if sat16 n = n then s else raiseAnomaly (.rangeSaturated q n) s

/-- `TempCode16(T)` (R153). -/
def tempCode16 (p : Params) (t : REAL) : Code :=
  code16 (temperatureRounded p t)

/-- `HumCode16(H)` (R155). -/
def humCode16 (p : Params) (h : REAL) : Code :=
  code16 (humidityRounded p h)

/-- `PackTemp(c, mode)` (R159): the four shift and mask pairs of the source's table. -/
def packTemp (c : Code) (mode : Byte) : Packed :=
  if mode = 0x00#8 then ⟨trunc8 ((c >>> 2) >>> 6), trunc8 (((c >>> 2) &&& 0x3F#16) <<< 2)⟩
  else if mode = 0x01#8 then ⟨trunc8 ((c >>> 4) >>> 4), trunc8 (((c >>> 4) &&& 0xF#16) <<< 4)⟩
  else if mode = 0x80#8 then ⟨trunc8 ((c >>> 3) >>> 5), trunc8 (((c >>> 3) &&& 0x1F#16) <<< 3)⟩
  else ⟨trunc8 ((c >>> 5) >>> 3), trunc8 (((c >>> 5) &&& 0x7#16) <<< 5)⟩

/-- `PackHum(c, mode)` (R160): the same for humidity, with the status pattern added. -/
def packHum (c : Code) (mode : Byte) : Packed :=
  if mode = 0x00#8 then ⟨trunc8 ((c >>> 4) >>> 4), trunc8 (((c >>> 4) &&& 0xF#16) <<< 4) + humidityStatus⟩
  else if mode = 0x01#8 then ⟨trunc8 (c >>> 8), humidityStatus⟩
  else if mode = 0x80#8 then ⟨trunc8 ((c >>> 6) >>> 2), trunc8 (((c >>> 6) &&& 0x3#16) <<< 6) + humidityStatus⟩
  else ⟨trunc8 ((c >>> 5) >>> 3), trunc8 (((c >>> 5) &&& 0x7#16) <<< 5) + humidityStatus⟩

/-- What a master does with a packed measurement of width `n` (R162); the core does not perform it. -/
def unpack (n : Nat) (p : Packed) : Code :=
  (zext16 p.hi <<< (n - 8)) ||| (zext16 p.lo >>> (16 - n))

/-- `T` of R150 (R152): no clamping is applied to temperature. -/
def temperatureOf (k : Fin 10) (u : UnitReal) : REAL :=
  sample temperatureMean temperatureSigma k u

/-- `H` of R150 (R154): the sample around `meanHumidity`, clamped to [1.0, 99.0]. -/
def humidityOf (mean : REAL) (k : Fin 10) (u : UnitReal) : REAL :=
  clamp (sample mean humiditySigma k u) 1 99

/-- The first half of `Measure()` (R150): draws 1 and 2, conversion, packing in the mode in force. -/
def measureTemperature (s : State) : State :=
  let n := temperatureRounded s.params (temperatureOf (int10Answer s) (unitAnswer (advanceRng s)))
  setTemperature (packTemp (code16 n) (modeOf s.regs.userRegister))
    (raiseIfSaturated .temperature n (advanceRng (advanceRng s)))

/-- The second half of `Measure()` (R150): draws 3 and 4, clamp, conversion, packing in the mode in force. -/
def measureHumidity (s : State) : State :=
  let n := humidityRounded s.params (humidityOf s.regs.meanHumidity (int10Answer s) (unitAnswer (advanceRng s)))
  setHumidity (packHum (code16 n) (modeOf s.regs.userRegister))
    (raiseIfSaturated .humidity n (advanceRng (advanceRng s)))

/-- `Measure()` (R150): "temperature then humidity". -/
def performMeasure (s : State) : State :=
  measureHumidity (measureTemperature s)

end Sys2Proof.Machine
end

