-- ==== Sys2Proof/Machine/ReceivingData.lean ====
section
/-! DEFINITION. The register handlers of the ReceivingData phase (R122 to R130). Each meaning is a whole `WRITE` of a frame that decodes to the
command (R101): latching, handler, exit. -/

namespace Sys2Proof.Machine

/-- R130: "after handling, `state` is forced back to Idle". -/
def exitIdle (s : State) : Answer :=
  .next (setPhase .idle s)

/-- RD.SOFTRESET (R122): the reset runs after the latches are written, so it clears them (C8). -/
def execRdSoftreset (t : Tail) (s : State) : Answer :=
  exitIdle (resetState (beginWrite .receivingData (some codeSoftReset) t s))

/-- RD.USERWRITE (R123): with no data byte the value stored is the stale latch (D4, log entry 5). -/
def execRdUserwrite (t : Tail) (s : State) : Answer :=
  let s := beginWrite .receivingData (some codeUserWrite) t s
  exitIdle (setUser s.regs.registerData s)

/-- RD.USERREAD (R124): "No state effect in this phase". -/
def execRdUserread (t : Tail) (s : State) : Answer :=
  exitIdle (beginWrite .receivingData (some codeUserRead) t s)

/-- RD.MEAS_HM (R125): measures and does not touch `pendingResponse` (D22, log entry 12). -/
def execRdMeasHm (t : Tail) (s : State) : Answer :=
  exitIdle (performMeasure (beginWrite .receivingData (some codeTempHumHM) t s))

/-- RD.MEAS_POLL (R126): measures and builds the response at once, over the whole frame. -/
def execRdMeasPoll (t : Tail) (s : State) : Answer :=
  let s := performMeasure (beginWrite .receivingData (some codeTempHumPoll) t s)
  exitIdle (respond (frame selReceivingData codeTempHumPoll t)
    (frame6 s.regs.lastTemperatureCode s.regs.lastHumidityCode) s)

/-- RD.OCM1 (R127): "Reserved: no measurement side effect". -/
def execRdOcm1 (t : Tail) (s : State) : Answer :=
  exitIdle (beginWrite .receivingData (some codeOnChipMemory1) t s)

/-- RD.OCM2 (R128). -/
def execRdOcm2 (t : Tail) (s : State) : Answer :=
  exitIdle (beginWrite .receivingData (some codeOnChipMemory2) t s)

/-- RD.OTHER (R129): "log-and-ignore"; the code may be absent (R76). -/
def execRdOther (code : Option Code) (t : Tail) (s : State) : Answer :=
  exitIdle (raiseAnomaly (.unknownCode code) (beginWrite .receivingData code t s))

end Sys2Proof.Machine
end

