-- ==== Sys2Proof/Machine/IdleBranch.lean ====
section
/-! DEFINITION. The Idle and unrecognized branches (R137, R138) and the write that is too short (R202). -/

namespace Sys2Proof.Machine

/-- IDLE.ANY (R137): latches only (D25, log entry 8). -/
def execIdleAny (code : Code) (t : Tail) (s : State) : Answer :=
  exitIdle (beginWrite .idle (some code) t s)

/-- UNK.ANY (R138): raises `UnknownState`, latches, and ends Idle (D16, log entry 8). -/
def execUnkAny (sel code : Code) (t : Tail) (s : State) : Answer :=
  exitIdle (raiseAnomaly (.unknownState sel) (beginWrite .idle (some code) t s))

/-- The length of a write of at most one byte. -/
def shortLength (b : Option Byte) : Nat :=
  match b with
  | none => 0
  | some _ => 1

/-- SHORT (R101, R202): `raise ShortWrite(n)` and "no register changes at all". -/
def execShort (b : Option Byte) (s : State) : Answer :=
  .next (raiseAnomaly (.shortWrite (shortLength b)) (beginOp s))

end Sys2Proof.Machine
end

