-- ==== Sys2Proof/Machine/SendingData.lean ====
section
/-! DEFINITION. The SendingData branch (R131 to R136): each command rebuilds `pendingResponse` over the whole frame, and `state` stays
SendingData. -/

namespace Sys2Proof.Machine

/-- SD.USERREAD (R131). -/
def execSdUserread (t : Tail) (s : State) : Answer :=
  let s := beginWrite .sendingData (some codeUserRead) t s
  .next (respond (frame selSendingData codeUserRead t) [s.regs.userRegister] s)

/-- SD.MEAS_HM (R132): frames the stored codes, takes no measurement (D7, log entry 12). -/
def execSdMeasHm (t : Tail) (s : State) : Answer :=
  let s := beginWrite .sendingData (some codeTempHumHM) t s
  .next (respond (frame selSendingData codeTempHumHM t)
    (frame6 s.regs.lastTemperatureCode s.regs.lastHumidityCode) s)

/-- SD.OCM1 (R133): nine zero bytes. -/
def execSdOcm1 (t : Tail) (s : State) : Answer :=
  .next (respond (frame selSendingData codeOnChipMemory1 t) (zeros 9)
    (beginWrite .sendingData (some codeOnChipMemory1) t s))

/-- SD.OCM2 (R134): seven zero bytes. -/
def execSdOcm2 (t : Tail) (s : State) : Answer :=
  .next (respond (frame selSendingData codeOnChipMemory2 t) (zeros 7)
    (beginWrite .sendingData (some codeOnChipMemory2) t s))

/-- The first line of SD.OTHER (R135, R204): the three recognized codes without a response raise nothing. -/
def raiseIfUnrecognized (code : Code) (s : State) : State :=
  if code = codeSoftReset ∨ code = codeUserWrite ∨ code = codeTempHumPoll then s
  else raiseAnomaly (.unknownCode (some code)) s

/-- SD.OTHER (R135): no register side effect, and the response is built with `DEFAULT_PAYLOAD` (D6, D7, log entry 3). -/
def execSdOther (code : Code) (t : Tail) (s : State) : Answer :=
  let s := raiseIfUnrecognized code (beginWrite .sendingData (some code) t s)
  .next (respond (frame selSendingData code t) s.params.defaultPayload s)

end Sys2Proof.Machine
end

