-- ==== Sys2Proof/Machine/PortOps.lean ====
section
/-! DEFINITION. The five port operations (40_bus_operations.md), and the dispatch of a `WRITE` (R101). -/

namespace Sys2Proof.Machine

/-- The register handlers of R57 and R81 rows 1 to 8, by register code. -/
def dispatchReceiving (code : Code) (t : Tail) (s : State) : Answer :=
  if code = codeSoftReset then execRdSoftreset t s
  else if code = codeUserWrite then execRdUserwrite t s
  else if code = codeUserRead then execRdUserread t s
  else if code = codeTempHumPoll then execRdMeasPoll t s
  else if code = codeTempHumHM then execRdMeasHm t s
  else if code = codeOnChipMemory1 then execRdOcm1 t s
  else if code = codeOnChipMemory2 then execRdOcm2 t s
  else execRdOther (some code) t s

/-- The responses of R57 and R81 rows 9 to 13, by register code. -/
def dispatchSending (code : Code) (t : Tail) (s : State) : Answer :=
  if code = codeUserRead then execSdUserread t s
  else if code = codeTempHumHM then execSdMeasHm t s
  else if code = codeOnChipMemory1 then execSdOcm1 t s
  else if code = codeOnChipMemory2 then execSdOcm2 t s
  else execSdOther code t s

/-- `dispatch(sel, present, code, b)` (R101): the branch of the phase (R120), an unrecognized state-select apart (R138). -/
def dispatch (sel code : Code) (t : Tail) (s : State) : Answer :=
  match phaseOf sel with
  | .receivingData => dispatchReceiving code t s
  | .sendingData => dispatchSending code t s
  | .idle => if sel = selIdle then execIdleAny code t s else execUnkAny sel code t s

/-- `WRITE(b)` (R101): length check, parse, latch, dispatch, state exit. The latching stands in the meaning of each command; an absent
register field dispatches as an unrecognized code (R121). -/
def execWrite (b : List Byte) (s : State) : Answer :=
  match parseFrame s.params.frameLayout b with
  | .short b => execShort b s
  | .noRegister _ => execRdOther none .none s
  | .full sel code t => dispatch sel code t s

/-- `READ(count)` (R102): the whole buffer; `count` is not looked at. -/
def execRead (_count : Int) (s : State) : Answer :=
  .next (returning (.bytes (memRead 0 s.regs.pendingResponse.length s)) (beginOp s))

/-- `RESET()` (R100). -/
def execReset (s : State) : Answer :=
  .next (resetState (beginOp s))

/-- `SET_MEAN_HUMIDITY(v)` (R103). -/
def execSetMeanHumidity (v : REAL) (s : State) : Answer :=
  .next (setMean v (beginOp s))

/-- `GET_MEAN_HUMIDITY()` (R104). -/
def execGetMeanHumidity (s : State) : Answer :=
  .next (returning (.real s.regs.meanHumidity) (beginOp s))

end Sys2Proof.Machine
end

