-- ==== Sys2Proof/Machine/Dispatch.lean ====
section
/-! DEFINITION. The meaning of every instruction, one arm per row of spec/opcode_table.json. -/

namespace Sys2Proof.Machine

def exec (i : Instr) (s : State) : Host.Outcome State Fault Refusal :=
  match i with
  | .short b => Sys2Proof.Machine.execShort b s
  | .rdSoftreset t => Sys2Proof.Machine.execRdSoftreset t s
  | .rdUserwrite t => Sys2Proof.Machine.execRdUserwrite t s
  | .rdUserread t => Sys2Proof.Machine.execRdUserread t s
  | .rdMeasPoll t => Sys2Proof.Machine.execRdMeasPoll t s
  | .rdMeasHm t => Sys2Proof.Machine.execRdMeasHm t s
  | .rdOcm1 t => Sys2Proof.Machine.execRdOcm1 t s
  | .rdOcm2 t => Sys2Proof.Machine.execRdOcm2 t s
  | .rdOther code t => Sys2Proof.Machine.execRdOther code t s
  | .sdUserread t => Sys2Proof.Machine.execSdUserread t s
  | .sdMeasHm t => Sys2Proof.Machine.execSdMeasHm t s
  | .sdOcm1 t => Sys2Proof.Machine.execSdOcm1 t s
  | .sdOcm2 t => Sys2Proof.Machine.execSdOcm2 t s
  | .sdOther code t => Sys2Proof.Machine.execSdOther code t s
  | .idleAny code t => Sys2Proof.Machine.execIdleAny code t s
  | .unkAny sel code t => Sys2Proof.Machine.execUnkAny sel code t s
  | .write b => Sys2Proof.Machine.execWrite b s
  | .read count => Sys2Proof.Machine.execRead count s
  | .reset => Sys2Proof.Machine.execReset s
  | .setMeanHumidity v => Sys2Proof.Machine.execSetMeanHumidity v s
  | .getMeanHumidity => Sys2Proof.Machine.execGetMeanHumidity s

end Sys2Proof.Machine
end

