-- ==== Sys2Proof/Machine/Ports.lean ====
section
/-! DEFINITION. What arrives at the ports and what the step does with it (R5, R7, R59, R61): one arrival is one atomic step. -/

namespace Sys2Proof.Machine

/-- The instruction an operation executes: a write is decoded, the other operations are themselves (R81, R88). -/
def instrOf (l : FrameLayout) : PortOp → Instr
  | .write b => decode l b
  | .read count => .read count
  | .reset => .reset
  | .setMeanHumidity v => .setMeanHumidity v
  | .getMeanHumidity => .getMeanHumidity

/-- The operation an arrival gives the core: none where two overlap (R61), and no write the transport may not deliver (R8). -/
def accepted (p : Params) : Arrival → Except Refusal PortOp
  | .overlapping _ _ => .error .concurrentInvocation
  | .one (.write b) => if deliverable p b then .ok (.write b) else .error (.undeliverableWrite b.length)
  | .one op => .ok op

/-- The arrival at the front is taken off the ports. -/
def popArrival (s : State) : State :=
  { s with arrivals := s.arrivals.tail }

/-- The operation whose frame is `b`, presented at the bus port ahead of all others. -/
def presentWrite (b : List Byte) (s : State) : State :=
  { s with arrivals := .one (.write b) :: s.arrivals }

end Sys2Proof.Machine
end

