-- ==== Sys2Proof/Machine/Step.lean ====
section
/-! DEFINITION. One step: the operation at the front of the ports, executed to completion (R59). With nothing there the core does
nothing: "It is purely reactive: it changes state only inside one of the five operations" (R206; log entry 20). -/

namespace Sys2Proof.Machine

def step (s : State) : Host.Outcome State Fault Refusal :=
  match s.arrivals with
  | [] => .next s
  | a :: _ =>
    match accepted s.params a with
    | .error r => .refused r
    | .ok op => exec (instrOf s.params.frameLayout op) (popArrival s)

/-- The state with the instruction of a table word as the operation the very next step executes: the frame of those bits, presented at
the bus port. The core has no program of its own: each instruction comes in this way (R62, log entry 20). -/
def State.withFetchWord (s : State) (nbits w : Nat) : State :=
  presentWrite (tableFrame nbits w) s

end Sys2Proof.Machine
end

