-- ==== Sys2Proof/Machine/Trace.lean ====
section
/-! DEFINITION. The trace lines of R86 and how a trace is loaded: its operations arrive at the ports in order, its `DRAW` lines are
the next answers of the random source (log entries 16, 20). -/

namespace Sys2Proof.Machine

/-- The mnemonic shorthands of R86. -/
inductive Shorthand where
  | softReset
  | userWrite (d : Byte)
  | measHm
  | measPoll
  | setupUser
  | setupMeas
  | setupOcm1
  | setupOcm2
deriving DecidableEq, Repr

/-- The one `W` line a shorthand expands to, under CODED (R86). -/
def Shorthand.expand : Shorthand → List Byte
  | .softReset => [0xF3#8, 0x2D#8, 0x30#8, 0xA2#8]
  | .userWrite d => [0xF3#8, 0x2D#8, 0xE6#8, d]
  | .measHm => [0xF3#8, 0x2D#8, 0x2C#8]
  | .measPoll => [0xF3#8, 0x2D#8, 0x2C#8, 0x06#8]
  | .setupUser => [0xFC#8, 0xE7#8]
  | .setupMeas => [0xFC#8, 0x2C#8]
  | .setupOcm1 => [0xFC#8, 0xFA#8]
  | .setupOcm2 => [0xFC#8, 0xFC#8]

/-- The answer `p/q` to a `DrawUnit()`, as a `DRAW` line writes it ("u as a rational", R86). -/
def Draw.frac (p q : Nat) (h : p < q := by decide) : Draw :=
  .unit ⟨(p : REAL) / q, by positivity, by
    have hq : (0 : Rat) < q := by exact_mod_cast Nat.lt_of_le_of_lt (Nat.zero_le p) h
    rw [div_lt_one hq]; exact_mod_cast h⟩

/-- One line of a trace (R86): `RESET`, `W`, `R`, `SETH`, `GETH`, `DRAW`, or a shorthand. -/
inductive TraceLine where
  | reset
  | w (b : List Byte)
  | r (count : Int := 0)
  | seth (v : REAL)
  | geth
  | draw (answers : List Draw)
  | short (sh : Shorthand)
deriving DecidableEq, Repr

/-- The operation a line presents; a `DRAW` line presents none. -/
def TraceLine.op? : TraceLine → Option PortOp
  | .reset => some .reset
  | .w b => some (.write b)
  | .r count => some (.read count)
  | .seth v => some (.setMeanHumidity v)
  | .geth => some .getMeanHumidity
  | .draw _ => none
  | .short sh => some (.write sh.expand)

/-- The answers a line scripts. -/
def TraceLine.draws : TraceLine → List Draw
  | .draw answers => answers
  | _ => []

/-- A trace at the ports of `s`, behind what already waits there. -/
def load (lines : List TraceLine) (s : State) : State :=
  { s with
    arrivals := s.arrivals ++ (lines.filterMap TraceLine.op?).map Arrival.one
    rng := ⟨s.rng.script ++ lines.flatMap TraceLine.draws, s.rng.drawn⟩ }

end Sys2Proof.Machine
end

