-- ==== Sys2Proof/Safety.lean ====
section
/-! DEFINITION. The terms in which claims are stated: what a reachable state looks like, what an operation leaves alone, what a
measurement of the next four draws is. -/

namespace Sys2Proof

/-- What an instruction is, in the classes the rules speak of. -/
inductive Kind where
  /-- SHORT (R202). -/
  | short
  /-- RD.SOFTRESET (R122). -/
  | softReset
  /-- RD.MEAS_HM and RD.MEAS_POLL: the commands that measure (R165). -/
  | measuring
  /-- The other RD commands (R123 to R129). -/
  | receiving
  /-- The SD commands (R131 to R135). -/
  | sending
  /-- IDLE.ANY and UNK.ANY (R137, R138). -/
  | latching
  /-- The port operations of R5 that are no write, and `WRITE` before it is decoded. -/
  | port
deriving DecidableEq, Repr

/-- The class of each instruction. -/
def Instr.kind : Instr → Kind
  | .short _ => .short
  | .rdSoftreset _ => .softReset
  | .rdUserwrite _ => .receiving
  | .rdUserread _ => .receiving
  | .rdMeasPoll _ => .measuring
  | .rdMeasHm _ => .measuring
  | .rdOcm1 _ => .receiving
  | .rdOcm2 _ => .receiving
  | .rdOther _ _ => .receiving
  | .sdUserread _ => .sending
  | .sdMeasHm _ => .sending
  | .sdOcm1 _ => .sending
  | .sdOcm2 _ => .sending
  | .sdOther _ _ => .sending
  | .idleAny _ _ => .latching
  | .unkAny _ _ _ => .latching
  | .write _ => .port
  | .read _ => .port
  | .reset => .port
  | .setMeanHumidity _ => .port
  | .getMeanHumidity => .port

/-- The register code and the tail a write command latches (R121): no code for the frame `F3 2D` (R76), nothing for the rest. -/
def Instr.latches : Instr → Option (Option Code × Tail)
  | .short _ => none
  | .rdSoftreset t => some (some codeSoftReset, t)
  | .rdUserwrite t => some (some codeUserWrite, t)
  | .rdUserread t => some (some codeUserRead, t)
  | .rdMeasPoll t => some (some codeTempHumPoll, t)
  | .rdMeasHm t => some (some codeTempHumHM, t)
  | .rdOcm1 t => some (some codeOnChipMemory1, t)
  | .rdOcm2 t => some (some codeOnChipMemory2, t)
  | .rdOther code t => some (code, t)
  | .sdUserread t => some (some codeUserRead, t)
  | .sdMeasHm t => some (some codeTempHumHM, t)
  | .sdOcm1 t => some (some codeOnChipMemory1, t)
  | .sdOcm2 t => some (some codeOnChipMemory2, t)
  | .sdOther code t => some (some code, t)
  | .idleAny code t => some (some code, t)
  | .unkAny _ code t => some (some code, t)
  | .write _ => none
  | .read _ => none
  | .reset => none
  | .setMeanHumidity _ => none
  | .getMeanHumidity => none

/-- An instruction that leaves `registerData`: it has no data byte (R121) and is no reset (R35, R122). -/
def Instr.keepsData (i : Instr) : Bool :=
  match i.latches with
  | some (_, t) => t.data?.isNone && i.kind != .softReset
  | none => i != .reset

end Sys2Proof

namespace Sys2Proof.Machine

/-- The bytes a packed temperature may be (R26, R161, R163): those of reset, or byte0 in `0x56`..`0x7A` and status bits `00`. -/
abbrev temperatureWord (p : Packed) : Prop :=
  p = ⟨0x00#8, 0x00#8⟩ ∨ (0x56 ≤ p.hi.toNat ∧ p.hi.toNat ≤ 0x7A ∧ statusBits p = 0b00#2)

/-- The bytes a packed humidity may be (R27, R161, R163): those of reset, or byte0 in `0x0E`..`0xD7` and status bits `10`. -/
abbrev humidityWord (p : Packed) : Prop :=
  p = ⟨0x00#8, 0x00#8⟩ ∨ (0x0E ≤ p.hi.toNat ∧ p.hi.toNat ≤ 0xD7 ∧ statusBits p = 0b10#2)

/-- The contents `pendingResponse` may have, by length (R28, R185). -/
abbrev responseShape (p : Params) (r : List Byte) : Prop :=
  r = p.resetResponse ∨ r.length = 2 ∨ r.length = 7 ∨ r.length = 8 ∨ r.length = 10 ∨ r.length = p.defaultPayload.length + 1

/-- What every operation boundary of a run shows (R12, R21, R26 to R28): the phase is Idle or SendingData, the response is one that a
reset or a write builds, the two measurements are both those of reset or both measured. -/
structure Inv (s : State) : Prop where
  params      : s.params.wf
  phase       : s.regs.state = .idle ∨ s.regs.state = .sendingData
  response    : responseShape s.params s.regs.pendingResponse
  capacity    : s.regs.pendingResponse.length ≤ 10
  temperature : temperatureWord s.regs.lastTemperatureCode
  humidity    : humidityWord s.regs.lastHumidityCode
  together    : s.regs.lastTemperatureCode = ⟨0x00#8, 0x00#8⟩ ↔ s.regs.lastHumidityCode = ⟨0x00#8, 0x00#8⟩

/-- The configuration, the arrivals still waiting and the random source are as before: what an operation without a draw leaves
alone beside the registers. -/
structure PortsKept (s u : State) : Prop where
  params   : u.params = s.params
  arrivals : u.arrivals = s.arrivals
  rng      : u.rng = s.rng

/-- The same for an operation that measures: four draws are consumed (R150, R165). -/
structure FourDrawn (s u : State) : Prop where
  params   : u.params = s.params
  arrivals : u.arrivals = s.arrivals
  rng      : u.rng = ⟨s.rng.script.drop 4, s.rng.drawn + 4⟩

/-- The diagnostic event after an operation whose only anomaly is `e` (R201): with `DIAG` off nothing is recorded. -/
def diagAfter (s : State) (e : DiagEvent) : DiagEvent :=
  if s.params.diag then e else s.diag

/-- `lastTemperatureCode` after a measurement taken in `s`, from draws 1 and 2 (R150). -/
def measuredTemperature (s : State) : Packed :=
  packTemp (tempCode16 s.params (temperatureOf (int10Answer s) (unitAnswer (advanceRng s)))) (modeOf s.regs.userRegister)

/-- `lastHumidityCode` after a measurement taken in `s`, from draws 3 and 4 (R150). -/
def measuredHumidity (s : State) : Packed :=
  packHum
    (humCode16 s.params
      (humidityOf s.regs.meanHumidity (int10Answer (advanceRng (advanceRng s)))
        (unitAnswer (advanceRng (advanceRng (advanceRng s))))))
    (modeOf s.regs.userRegister)

/-- The instruction a port operation comes to: a `WRITE` executes the command its frame decodes to (R81, R101). -/
def resolved (l : FrameLayout) : Instr → Instr
  | .write b => decode l b
  | .short b => .short b
  | .rdSoftreset t => .rdSoftreset t
  | .rdUserwrite t => .rdUserwrite t
  | .rdUserread t => .rdUserread t
  | .rdMeasPoll t => .rdMeasPoll t
  | .rdMeasHm t => .rdMeasHm t
  | .rdOcm1 t => .rdOcm1 t
  | .rdOcm2 t => .rdOcm2 t
  | .rdOther code t => .rdOther code t
  | .sdUserread t => .sdUserread t
  | .sdMeasHm t => .sdMeasHm t
  | .sdOcm1 t => .sdOcm1 t
  | .sdOcm2 t => .sdOcm2 t
  | .sdOther code t => .sdOther code t
  | .idleAny code t => .idleAny code t
  | .unkAny sel code t => .unkAny sel code t
  | .read count => .read count
  | .reset => .reset
  | .setMeanHumidity v => .setMeanHumidity v
  | .getMeanHumidity => .getMeanHumidity

/-- Operations one after the other, each from the state the last one left (R59). -/
def execAll : List Instr → State → Answer
  | [], s => .next s
  | i :: rest, s =>
    match exec i s with
    | .next u => execAll rest u
    | .fault f => .fault f
    | .refused r => .refused r

/-- The state with `state` and `registerAddress` replaced: the two registers no later operation reads (R140). -/
def withPhaseAndAddress (p : Phase) (c : Code) (s : State) : State :=
  setAddress c (setPhase p s)

end Sys2Proof.Machine
end

