-- ==== Sys2Proof/Certificates/Slice0/Obligations.lean ====
section
/-! DEFINITION. The statements for the provers. Every one holds of every state, reachable or not, unless it says otherwise; "completes" is
`∃ u, exec i s = .next u`. The `[decision Dn]` marks of the spec are its own choices; where a statement rests on one, its docstring
names it and the log entry. A clause about `diag` says which anomaly the rule raises; how an event is recorded is D13 (log entry 21),
in every statement. -/

open Sys2Proof Sys2Proof.Machine

/-! ## The step, the decoder, the encoder -/

/-- A step executes the operation at the front of the ports: a write is decoded and the decoded instruction executed, any other operation
is executed as it is (20_memory.md section 4; the ports as a list are the model's choice, log entry 20). -/
def Obligations.StepRunsTheArrivingOperation : Prop :=
  (∀ (s : State) (b : List Byte) (rest : List Arrival), s.arrivals = .one (.write b) :: rest → deliverable s.params b = true →
    step s = exec (decode s.params.frameLayout b) { s with arrivals := rest }) ∧
  (∀ (s : State) (count : Int) (rest : List Arrival), s.arrivals = .one (.read count) :: rest →
    step s = exec (.read count) { s with arrivals := rest }) ∧
  (∀ (s : State) (rest : List Arrival), s.arrivals = .one .reset :: rest →
    step s = exec .reset { s with arrivals := rest }) ∧
  (∀ (s : State) (v : REAL) (rest : List Arrival), s.arrivals = .one (.setMeanHumidity v) :: rest →
    step s = exec (.setMeanHumidity v) { s with arrivals := rest }) ∧
  (∀ (s : State) (rest : List Arrival), s.arrivals = .one .getMeanHumidity :: rest →
    step s = exec .getMeanHumidity { s with arrivals := rest })

/-- A step is refused exactly where two operations overlap (R61) or a write is longer than `MAX_WRITE_LEN` (R8), and with no arrival
nothing changes (log entries 11, 19, 20). -/
def Obligations.StepRefusesOnlyWhatIsNoOperation : Prop :=
  (∀ (s : State) (a b : PortOp) (rest : List Arrival), s.arrivals = .overlapping a b :: rest →
    step s = .refused .concurrentInvocation) ∧
  (∀ (s : State) (b : List Byte) (rest : List Arrival) (m : Nat), s.arrivals = .one (.write b) :: rest →
    s.params.maxWriteLen = some m → m < b.length → step s = .refused (.undeliverableWrite b.length)) ∧
  (∀ s : State, s.arrivals = [] → step s = .next s) ∧
  (∀ (s : State) (r : Refusal), step s = .refused r →
    (∃ a b rest, s.arrivals = .overlapping a b :: rest ∧ r = .concurrentInvocation) ∨
    (∃ b rest m, s.arrivals = .one (.write b) :: rest ∧ s.params.maxWriteLen = some m ∧ m < b.length ∧
      r = .undeliverableWrite b.length))

/-- The frames of 95_test_vectors.md, all 26 of B1 under CODED and all 6 of B2 under POSITIONAL, decode to the commands and operands named
there (D1). -/
def Obligations.VectorFramesDecode : Prop :=
  decode .coded [] = .short none ∧
  decode .coded [0xFC#8] = .short (some 0xFC#8) ∧
  decode .coded [0xF3#8] = .short (some 0xF3#8) ∧
  decode .coded [0xFC#8, 0xE7#8] = .sdUserread .none ∧
  decode .coded [0xFC#8, 0xE7#8, 0x01#8, 0x02#8, 0x03#8] = .sdUserread (.data 0x01#8 [0x02#8, 0x03#8]) ∧
  decode .coded [0xFC#8, 0x2C#8] = .sdMeasHm .none ∧
  decode .coded [0xFC#8, 0x2C#8, 0x06#8] = .sdOther 0x2C06#16 .none ∧
  decode .coded [0xFC#8, 0x2C#8, 0x07#8] = .sdMeasHm (.data 0x07#8 []) ∧
  decode .coded [0xFC#8, 0x30#8, 0xA2#8] = .sdOther 0x30A2#16 .none ∧
  decode .coded [0xFC#8, 0xFC#8] = .sdOcm2 .none ∧
  decode .coded [0xFC#8, 0xF3#8, 0x2D#8] = .sdOther 0x00F3#16 (.data 0x2D#8 []) ∧
  decode .coded [0xF3#8, 0x2D#8] = .rdOther none .none ∧
  decode .coded [0xF3#8, 0x2D#8, 0x2C#8] = .rdMeasHm .none ∧
  decode .coded [0xF3#8, 0x2D#8, 0x2C#8, 0x06#8] = .rdMeasPoll .none ∧
  decode .coded [0xF3#8, 0x2D#8, 0x2C#8, 0x06#8, 0xAA#8] = .rdMeasPoll (.data 0xAA#8 []) ∧
  decode .coded [0xF3#8, 0x2D#8, 0x2C#8, 0x05#8] = .rdMeasHm (.data 0x05#8 []) ∧
  decode .coded [0xF3#8, 0x2D#8, 0x30#8] = .rdOther (some 0x0030#16) .none ∧
  decode .coded [0xF3#8, 0x2D#8, 0x30#8, 0xA2#8] = .rdSoftreset .none ∧
  decode .coded [0xF3#8, 0x2D#8, 0x30#8, 0xA3#8] = .rdOther (some 0x0030#16) (.data 0xA3#8 []) ∧
  decode .coded [0xF3#8, 0x2D#8, 0xE6#8, 0x05#8] = .rdUserwrite (.data 0x05#8 []) ∧
  decode .coded [0xF3#8, 0x2D#8, 0xE6#8] = .rdUserwrite .none ∧
  decode .coded [0xF3#8, 0x2C#8] = .unkAny 0x00F3#16 0x002C#16 .none ∧
  decode .coded [0xF3#8, 0x2C#8, 0x06#8] = .unkAny 0x00F3#16 0x2C06#16 .none ∧
  decode .coded [0x00#8, 0xE6#8, 0x99#8] = .idleAny 0x00E6#16 (.data 0x99#8 []) ∧
  decode .coded [0x42#8, 0xE7#8] = .unkAny 0x0042#16 0x00E7#16 .none ∧
  decode .coded [0x2D#8, 0xF3#8] = .unkAny 0x002D#16 0x00F3#16 .none ∧
  decode .positional [0xFC#8, 0xE7#8] = .sdUserread .none ∧
  decode .positional [0xFC#8, 0x2C#8, 0x06#8] = .sdMeasHm (.data 0x06#8 []) ∧
  decode .positional [0xF3#8, 0x2D#8, 0xE6#8, 0x05#8] = .unkAny 0x00F3#16 0x002D#16 (.data 0xE6#8 [0x05#8]) ∧
  decode .positional [0xF3#8, 0x2D#8, 0x2C#8, 0x06#8] = .unkAny 0x00F3#16 0x002D#16 (.data 0x2C#8 [0x06#8]) ∧
  decode .positional [0x00#8, 0xE6#8, 0x05#8] = .idleAny 0x00E6#16 (.data 0x05#8 []) ∧
  decode .positional [0xFD#8, 0xE6#8, 0x05#8] = .unkAny 0x00FD#16 0x00E6#16 (.data 0x05#8 [])

/-- Decoding the encoding of a well-formed instruction gives it back, in both layouts, with every operand. -/
def Obligations.DecodeOfEncode : Prop :=
  ∀ (l : FrameLayout) (i : Instr) (b : List Byte), wellFormed l i = true → encode i = some b → decode l b = i

/-- Every frame has one meaning: it decodes to a well-formed instruction whose encoding is that very frame, so no byte is dropped, the excess
included (D1, D11). -/
def Obligations.EncodeOfDecode : Prop :=
  ∀ (l : FrameLayout) (b : List Byte), wellFormed l (decode l b) = true ∧ encode (decode l b) = some b

/-- The decoder and the opcode table read in file order, first match wins, name the same row for every frame (R81, R89; D1, D12). -/
def Obligations.DecodeAgreesWithOpcodeTable : Prop :=
  ∀ (l : FrameLayout) (b : List Byte), tableMnemonic l b = some (decode l b).mnemonic

/-- A `WRITE` completes, and does exactly what the one command its frame decodes to does (R81, R101; the layout is D1). -/
def Obligations.WriteRunsItsCommand : Prop :=
  ∀ (b : List Byte) (s : State),
    ∃ u, exec (.write b) s = .next u ∧ exec (decode s.params.frameLayout b) s = .next u

/-- Every instruction from every state with every argument has a next state, and so has the step on every arrival that is one operation, a
write no longer than the configured bound (`MAX_WRITE_LEN`, unbounded by default, log entry 11); an arrival of two overlapping
operations has no step (R200; the ports as a list and the two refusals are the model's form of D11 and D20, log entries 11, 19,
20). -/
def Obligations.EveryOperationHasAStep : Prop :=
  (∀ (i : Instr) (s : State), ∃ u, exec i s = .next u) ∧
  (∀ (s : State) (op : PortOp) (rest : List Arrival), s.arrivals = .one op :: rest →
    (∀ b, op = .write b → deliverable s.params b = true) → ∃ u, step s = .next u) ∧
  (∀ (s : State) (a b : PortOp) (rest : List Arrival), s.arrivals = .overlapping a b :: rest →
    step s = .refused .concurrentInvocation)

/-! ## The port operations -/

/-- `RESET` writes all eight registers, draws nothing, leaves the random source where it is; twice is as once; a `READ` after it returns
`RESET_RESPONSE`. The values of the latches, the codes and the response are the spec's decisions D2 to D5 (log entries 2, 4, 5, 6). -/
def Obligations.ResetWritesEveryRegister : Prop :=
  ∀ s : State, ∃ u, exec .reset s = .next u ∧
    u.regs =
      { state := .idle, userRegister := 0x3A#8, registerAddress := 0x0000#16, registerData := 0x00#8,
        lastTemperatureCode := ⟨0x00#8, 0x00#8⟩, lastHumidityCode := ⟨0x00#8, 0x00#8⟩,
        pendingResponse := s.params.resetResponse, meanHumidity := 80 } ∧
    PortsKept s u ∧ u.result = .none ∧ u.diag = diagAfter s .none ∧
    exec .reset u = .next u ∧
    ∀ count, ∃ v, exec (.read count) u = .next v ∧ v.result = .bytes s.params.resetResponse

/-- Power-on, `RESET` and RD.SOFTRESET give exactly the same registers (R230; D14, D18, log entries 7, 20). -/
def Obligations.ThreeWaysToReset : Prop :=
  ∀ (t : Tail) (s : State), s.params = State.reset.params →
    ∃ u v, exec .reset s = .next u ∧ exec (.rdSoftreset t) s = .next v ∧
      u.regs = State.reset.regs ∧ v.regs = State.reset.regs

/-- `READ` returns the whole response buffer whatever the count, and changes no register (R102; D3, D23, log entry 26). -/
def Obligations.ReadReturnsTheWholeBuffer : Prop :=
  ∀ (count : Int) (s : State), ∃ u, exec (.read count) s = .next u ∧
    u.result = .bytes s.regs.pendingResponse ∧ u.regs = s.regs ∧ PortsKept s u ∧ u.diag = diagAfter s .none

/-- R242: `count` does nothing: a master that asks for fewer bytes still gets the whole response, one that asks for more gets no padding. -/
def Obligations.CountDoesNothing : Prop :=
  ∀ (count count' : Int) (s : State), exec (.read count) s = exec (.read count') s ∧
    ∃ u, exec (.read count) s = .next u ∧ u.result = .bytes s.regs.pendingResponse

/-- `SET_MEAN_HUMIDITY` stores any REAL as given and writes nothing else; the new mean is what the next measurement samples around, and both
resets undo it (R103; D8, D18). -/
def Obligations.SetMeanStoresAnyValue : Prop :=
  ∀ (v : REAL) (s : State), ∃ u, exec (.setMeanHumidity v) s = .next u ∧
    u.regs = { s.regs with meanHumidity := v } ∧ PortsKept s u ∧ u.result = .none ∧ u.diag = diagAfter s .none ∧
    (∀ t, ∃ w, exec (.rdMeasHm t) u = .next w ∧ w.regs.meanHumidity = v ∧
      w.regs.lastHumidityCode =
        packHum
          (humCode16 s.params
            (humidityOf v (int10Answer (advanceRng (advanceRng s))) (unitAnswer (advanceRng (advanceRng (advanceRng s))))))
          (modeOf s.regs.userRegister)) ∧
    (∃ w, exec .reset u = .next w ∧ w.regs.meanHumidity = 80) ∧
    (∀ t, ∃ w, exec (.rdSoftreset t) u = .next w ∧ w.regs.meanHumidity = 80)

/-- R104: `GET_MEAN_HUMIDITY` returns the stored value, not clamped and not the last synthesized humidity, and writes no state; from reset it
returns 80.0, after `SETH -10` it returns -10. -/
def Obligations.GetMeanReturnsTheStoredValue : Prop :=
  (∀ s : State, ∃ u, exec .getMeanHumidity s = .next u ∧
    u.result = .real s.regs.meanHumidity ∧ u.regs = s.regs ∧ PortsKept s u ∧ u.diag = diagAfter s .none) ∧
  (∃ u, exec .getMeanHumidity State.reset = .next u ∧ u.result = .real 80) ∧
  (∃ u v, exec (.setMeanHumidity (-10)) State.reset = .next u ∧ exec .getMeanHumidity u = .next v ∧ v.result = .real (-10))

/-- R202: a write of length 0 or 1 changes no register, state and latches included, consumes no draw, and is recorded as `ShortWrite` with its
length. -/
def Obligations.ShortWriteChangesNothing : Prop :=
  (∀ (b : Option Byte) (s : State), ∃ u, exec (.short b) s = .next u ∧
    u.regs = s.regs ∧ PortsKept s u ∧ u.result = .none ∧
    u.diag = diagAfter s (.shortWrite (match b with | none => 0 | some _ => 1))) ∧
  (∀ (b : List Byte) (s : State), b.length < 2 → ∃ u, exec (.write b) s = .next u ∧
    u.regs = s.regs ∧ PortsKept s u ∧ u.result = .none ∧ u.diag = diagAfter s (.shortWrite b.length))

/-! ## The ReceivingData commands -/

/-- RD.SOFTRESET gives all eight registers their reset values, its own latches included; a data byte or excess changes nothing; no draw; the
same code in a SendingData write resets nothing (R122; D18, log entry 7; the reset values are D2 to D5). -/
def Obligations.SoftResetIsAFullReset : Prop :=
  ∀ (t : Tail) (s : State), (∃ u, exec (.rdSoftreset t) s = .next u ∧
      u.regs = Registers.reset s.params ∧ PortsKept s u ∧ u.result = .none ∧ u.diag = diagAfter s .none ∧
      exec .reset s = .next u) ∧
    (∃ u, exec (.sdOther codeSoftReset t) s = .next u ∧ u.regs.userRegister = s.regs.userRegister ∧
      u.regs.meanHumidity = s.regs.meanHumidity ∧ u.regs.lastTemperatureCode = s.regs.lastTemperatureCode ∧
      u.regs.lastHumidityCode = s.regs.lastHumidityCode)

/-- RD.USERWRITE stores all 8 bits of `registerData`, which is the frame's data byte or, with none, the stale latch, and writes no other
register beyond the latches and `state` (R123; the latch is D4, log entry 5). -/
def Obligations.UserWriteStoresTheDataLatch : Prop :=
  ∀ (t : Tail) (s : State), ∃ u, exec (.rdUserwrite t) s = .next u ∧
    u.regs =
      { s.regs with
        state := .idle
        registerAddress := 0x00E6#16
        registerData := t.data?.getD s.regs.registerData
        userRegister := t.data?.getD s.regs.registerData } ∧
    PortsKept s u ∧ u.result = .none ∧ u.diag = diagAfter s .none

/-- R124, R127, R128: UserRead, OnChipMemory1 and OnChipMemory2 in the ReceivingData phase set `state` to Idle and write nothing beyond the
latches; `pendingResponse` is not touched; no anomaly. -/
def Obligations.PlaceholderHandlersDoNothing : Prop :=
  (∀ t, command (.full 0xF32D#16 0x00E7#16 t) = .rdUserread t) ∧ decode .coded [0xF3#8, 0x2D#8, 0xE7#8] = .rdUserread .none ∧
  (∀ t, command (.full 0xF32D#16 0x00FA#16 t) = .rdOcm1 t) ∧ decode .coded [0xF3#8, 0x2D#8, 0xFA#8] = .rdOcm1 .none ∧
  (∀ t, command (.full 0xF32D#16 0x00FC#16 t) = .rdOcm2 t) ∧ decode .coded [0xF3#8, 0x2D#8, 0xFC#8] = .rdOcm2 .none ∧
  ∀ (t : Tail) (s : State) (i : Instr) (code : Code),
    (i = .rdUserread t ∧ code = 0x00E7#16) ∨ (i = .rdOcm1 t ∧ code = 0x00FA#16) ∨ (i = .rdOcm2 t ∧ code = 0x00FC#16) →
    ∃ u, exec i s = .next u ∧
      u.regs =
        { s.regs with
          state := .idle
          registerAddress := code
          registerData := t.data?.getD s.regs.registerData } ∧
      PortsKept s u ∧ u.result = .none ∧ u.diag = diagAfter s .none

/-- R129: any code outside the seven in the ReceivingData phase, or none, is RD.OTHER: `UnknownCode`, Idle, the latches where their fields are
present, nothing else; `F3 2D 30 A3` is an example. -/
def Obligations.UnrecognizedCodeIsIgnored : Prop :=
  (∀ code t, recognized.contains code = false → command (.full 0xF32D#16 code t) = .rdOther (some code) t) ∧
  command (.noRegister 0xF32D#16) = .rdOther none .none ∧
  (∀ (code : Option Code) (t : Tail) (s : State), ∃ u, exec (.rdOther code t) s = .next u ∧
    u.regs =
      { s.regs with
        state := .idle
        registerAddress := code.getD s.regs.registerAddress
        registerData := t.data?.getD s.regs.registerData } ∧
    PortsKept s u ∧ u.result = .none ∧ u.diag = diagAfter s (.unknownCode code)) ∧
  (∃ u, exec (.write [0xF3#8, 0x2D#8, 0x30#8, 0xA3#8]) State.reset = .next u ∧
    u.regs = { State.reset.regs with registerAddress := 0x0030#16, registerData := 0xA3#8 })

/-- RD.MEAS_HM takes one measurement: both codes, in the mode and around the mean in force, from exactly four draws; the response is not built
and nothing else is written (R125, R150; D10, D22, log entries 12, 15). -/
def Obligations.MeasureHmWritesTheTwoCodes : Prop :=
  ∀ (t : Tail) (s : State), ∃ u, exec (.rdMeasHm t) s = .next u ∧
    u.regs =
      { s.regs with
        state := .idle
        registerAddress := 0x002C#16
        registerData := t.data?.getD s.regs.registerData
        lastTemperatureCode := measuredTemperature s
        lastHumidityCode := measuredHumidity s } ∧
    FourDrawn s u ∧ u.result = .none ∧ u.diag = diagAfter s .none

/-- R126: RD.MEAS_POLL measures and builds the 7-byte response at once, over all bytes of its frame; `state` ends Idle; the same measurement
read back through `W FC 2C` has the same first six bytes and a different seventh; POSITIONAL cannot encode it; with `DRAW 0 0 0 0`
from reset the response is `68 AC E3 B0 22 75 34`. -/
def Obligations.MeasurePollBuildsTheResponse : Prop :=
  (∀ t, command (.full 0xF32D#16 0x2C06#16 t) = .rdMeasPoll t) ∧
  decode .coded [0xF3#8, 0x2D#8, 0x2C#8, 0x06#8] = .rdMeasPoll .none ∧
  (∀ b t, decode .positional b ≠ .rdMeasPoll t) ∧
  (∀ (t : Tail) (s : State), ∃ u, exec (.rdMeasPoll t) s = .next u ∧
    u.regs =
      { s.regs with
        state := .idle
        registerAddress := 0x2C06#16
        registerData := t.data?.getD s.regs.registerData
        lastTemperatureCode := measuredTemperature s
        lastHumidityCode := measuredHumidity s
        pendingResponse :=
          buildResponse ([0xF3#8, 0x2D#8, 0x2C#8, 0x06#8] ++ t.bytes) (frame6 (measuredTemperature s) (measuredHumidity s)) } ∧
    u.regs.pendingResponse.length = 7 ∧ FourDrawn s u ∧ u.result = .none ∧ u.diag = diagAfter s .none ∧
    ∃ v, exec (.sdMeasHm .none) u = .next v ∧
      v.regs.pendingResponse.take 6 = u.regs.pendingResponse.take 6 ∧
      (t = .none → v.regs.pendingResponse.getLast? ≠ u.regs.pendingResponse.getLast?)) ∧
  (∃ u, exec (.rdMeasPoll .none) (load [.draw [.int10 0, .frac 0 1, .int10 0, .frac 0 1]] State.reset) = .next u ∧
    u.regs.pendingResponse = [0x68#8, 0xAC#8, 0xE3#8, 0xB0#8, 0x22#8, 0x75#8, 0x34#8])

/-! ## The SendingData commands -/

/-- R131: SD.USERREAD makes the response `[userRegister]` and the frame checksum, 2 bytes: the value at the time of this write, not of a later
`READ`; `W FC E7` from reset reads `3A 21`. -/
def Obligations.UserReadBuildsTwoBytes : Prop :=
  (∀ t, command (.full 0x00FC#16 0x00E7#16 t) = .sdUserread t) ∧
  (∀ l, decode l [0xFC#8, 0xE7#8] = .sdUserread .none) ∧
  (∀ (t : Tail) (s : State), ∃ u, exec (.sdUserread t) s = .next u ∧
    u.regs =
      { s.regs with
        state := .sendingData
        registerAddress := 0x00E7#16
        registerData := t.data?.getD s.regs.registerData
        pendingResponse := [s.regs.userRegister, xorSum ([0xFC#8, 0xE7#8] ++ t.bytes ++ [s.regs.userRegister])] } ∧
    PortsKept s u ∧ u.result = .none ∧ u.diag = diagAfter s .none ∧
    ∀ later count, ∃ v, exec (.read count) (setUser later u) = .next v ∧ v.result = .bytes u.regs.pendingResponse) ∧
  (∃ u, exec (.write [0xFC#8, 0xE7#8]) State.reset = .next u ∧ u.regs.pendingResponse = [0x3A#8, 0x21#8])

/-- SD.MEAS_HM frames the stored codes, takes no measurement, consumes no draw; repeating the frame builds the same response (R132; D7, log
entry 12). -/
def Obligations.ReadSetupFramesTheStoredCodes : Prop :=
  ∀ (t : Tail) (s : State), ∃ u, exec (.sdMeasHm t) s = .next u ∧
    u.regs =
      { s.regs with
        state := .sendingData
        registerAddress := 0x002C#16
        registerData := t.data?.getD s.regs.registerData
        pendingResponse :=
          buildResponse ([0xFC#8, 0x2C#8] ++ t.bytes) (frame6 s.regs.lastTemperatureCode s.regs.lastHumidityCode) } ∧
    PortsKept s u ∧ u.result = .none ∧ u.diag = diagAfter s .none ∧ exec (.sdMeasHm t) u = .next u

/-- R133, R134: SD.OCM1 and SD.OCM2 answer nine and seven zero bytes and the XOR of the write bytes alone; from reset `W FC FA` reads nine
zeros and `06`, `W FC FC` reads eight zeros. -/
def Obligations.PlaceholderPayloadsAreZero : Prop :=
  (∀ t, command (.full 0x00FC#16 0x00FA#16 t) = .sdOcm1 t) ∧ (∀ l, decode l [0xFC#8, 0xFA#8] = .sdOcm1 .none) ∧
  (∀ t, command (.full 0x00FC#16 0x00FC#16 t) = .sdOcm2 t) ∧ (∀ l, decode l [0xFC#8, 0xFC#8] = .sdOcm2 .none) ∧
  (∀ (t : Tail) (s : State) (i : Instr) (code : Code) (n : Nat),
    (i = .sdOcm1 t ∧ code = 0x00FA#16 ∧ n = 9) ∨ (i = .sdOcm2 t ∧ code = 0x00FC#16 ∧ n = 7) →
    ∃ u, exec i s = .next u ∧
      u.regs =
        { s.regs with
          state := .sendingData
          registerAddress := code
          registerData := t.data?.getD s.regs.registerData
          pendingResponse := List.replicate n 0x00#8 ++ [xorSum ([0xFC#8, trunc8 code] ++ t.bytes)] } ∧
      PortsKept s u ∧ u.result = .none ∧ u.diag = diagAfter s .none) ∧
  (∃ u, exec (.write [0xFC#8, 0xFA#8]) State.reset = .next u ∧ u.regs.pendingResponse = List.replicate 9 0x00#8 ++ [0x06#8]) ∧
  (∃ u, exec (.write [0xFC#8, 0xFC#8]) State.reset = .next u ∧ u.regs.pendingResponse = List.replicate 8 0x00#8)

/-- SD.OTHER has no register side effect beyond the two latches and `state`, builds the response with `DEFAULT_PAYLOAD`, and raises
`UnknownCode` except for the three recognized codes without a response (R135, R204; D6, D7, D13, log entries 3, 21). -/
def Obligations.OtherReadSetupsAnswerTheDefault : Prop :=
  ∀ (code : Code) (t : Tail) (s : State), ∃ u, exec (.sdOther code t) s = .next u ∧
    u.regs =
      { s.regs with
        state := .sendingData
        registerAddress := code
        registerData := t.data?.getD s.regs.registerData
        pendingResponse := buildResponse ([0xFC#8] ++ codeBytes code ++ t.bytes) s.params.defaultPayload } ∧
    PortsKept s u ∧ u.result = .none ∧
    u.diag = diagAfter s
      (if code = codeSoftReset ∨ code = codeUserWrite ∨ code = codeTempHumPoll then .none else .unknownCode (some code))

/-- R136: after any SendingData command `state` is SendingData; every one replaces `pendingResponse` by a response built over its own frame;
none draws; none writes `userRegister`, the measurement codes or `meanHumidity`. The two latches are written as R121 says, and
no other register is: the registers are those of the start but for the four named, and the ports are kept. -/
def Obligations.SendingDataExit : Prop :=
  ∀ (i : Instr) (s : State) (b : List Byte), i.kind = .sending → encode i = some b →
    ∃ u p code t, i.latches = some (some code, t) ∧ exec i s = .next u ∧
      u.regs =
        { s.regs with
          state := .sendingData
          registerAddress := code
          registerData := t.data?.getD s.regs.registerData
          pendingResponse := p ++ [xorSum (b ++ p)] } ∧
      PortsKept s u ∧ u.result = .none

/-! ## The Idle and unrecognized branches, the state machine -/

/-- R137: a write that selects Idle only latches; no handler runs, the code is not examined, nothing is raised; `W 00 E6 99` is an example. -/
def Obligations.IdleWriteOnlyLatches : Prop :=
  (∀ code t, command (.full 0x0000#16 code t) = .idleAny code t) ∧
  (∀ (code : Code) (t : Tail) (s : State), ∃ u, exec (.idleAny code t) s = .next u ∧
    u.regs =
      { s.regs with
        state := .idle
        registerAddress := code
        registerData := t.data?.getD s.regs.registerData } ∧
    PortsKept s u ∧ u.result = .none ∧ u.diag = diagAfter s .none) ∧
  (∃ u, exec (.write [0x00#8, 0xE6#8, 0x99#8]) State.reset = .next u ∧
    u.regs = { State.reset.regs with registerAddress := 0x00E6#16, registerData := 0x99#8 })

/-- R138: a write with an unrecognized state-select raises `UnknownState`, writes the latches, ends Idle, and keeps `pendingResponse`; `W 42 E7`
is an example, and under POSITIONAL `W F3 2D E6 05`. -/
def Obligations.UnrecognizedStateOnlyLatches : Prop :=
  (∀ sel code t, sel ≠ 0x0000#16 → sel ≠ 0xF32D#16 → sel ≠ 0x00FC#16 → command (.full sel code t) = .unkAny sel code t) ∧
  (∀ (sel code : Code) (t : Tail) (s : State), ∃ u, exec (.unkAny sel code t) s = .next u ∧
    u.regs =
      { s.regs with
        state := .idle
        registerAddress := code
        registerData := t.data?.getD s.regs.registerData } ∧
    PortsKept s u ∧ u.result = .none ∧ u.diag = diagAfter s (.unknownState sel)) ∧
  (∃ u, exec (.write [0x42#8, 0xE7#8]) State.reset = .next u ∧
    u.regs = { State.reset.regs with registerAddress := 0x00E7#16 }) ∧
  (∃ u, exec (.write [0xF3#8, 0x2D#8, 0xE6#8, 0x05#8]) { State.reset with params := { frameLayout := .positional } } = .next u ∧
    u.regs = { State.reset.regs with registerAddress := 0x002D#16, registerData := 0xE6#8 })

/-- R130, R139: the next `state` of every operation, a `WRITE` by the command its frame decodes to: it depends on the operation only, and a
write too short, a `READ` and the two mean operations leave it. -/
def Obligations.StateTransitionTable : Prop :=
  ∀ (i : Instr) (s : State), ∃ u, exec i s = .next u ∧
    u.regs.state =
      match (resolved s.params.frameLayout i).kind with
      | .short => s.regs.state
      | .softReset => .idle
      | .measuring => .idle
      | .receiving => .idle
      | .sending => .sendingData
      | .latching => .idle
      | .port => if i = .reset then .idle else s.regs.state

/-- R121: in every phase, the unrecognized one included, the register code and the data byte of the frame are latched, an absent field leaving
its latch (a soft reset then clears them, R122); the dispatch uses the code of the same write, whatever was latched before; an absent register
code dispatches as an unrecognized one and the stale latch is not used. -/
def Obligations.WritesLatchTheirFields : Prop :=
  (∀ (i : Instr) (code : Option Code) (t : Tail) (s : State), i.latches = some (code, t) → i.kind ≠ .softReset →
    ∃ u, exec i s = .next u ∧ u.regs.registerAddress = code.getD s.regs.registerAddress ∧
      u.regs.registerData = t.data?.getD s.regs.registerData) ∧
  (∀ (b : List Byte) (sel code stale : Code) (t : Tail) (s : State), parseFrame s.params.frameLayout b = .full sel code t →
    ∃ u, exec (.write b) (setAddress stale s) = .next u ∧ exec (command (.full sel code t)) (setAddress stale s) = .next u ∧
      (u.regs.registerAddress = code ∨ command (.full sel code t) = .rdSoftreset t)) ∧
  (∀ (s : State) (stale : Code), ∃ u, exec (.write [0xF3#8, 0x2D#8]) (setAddress stale { s with params := { } }) = .next u ∧
    u.regs = { s.regs with state := .idle, registerAddress := stale } ∧ u.rng = s.rng)

/-- R140: no operation's result depends on the value of `state` or of `registerAddress` at its start: replacing them changes nothing in the end
state but these two registers themselves. -/
def Obligations.StartPhaseIsNotObserved : Prop :=
  ∀ (i : Instr) (s : State) (p : Phase) (c : Code), ∃ u v,
    exec i s = .next u ∧ exec i (withPhaseAndAddress p c s) = .next v ∧
      withPhaseAndAddress p c v = withPhaseAndAddress p c u ∧
      (i.latches.isSome → v.regs.state = u.regs.state)

/-! ## The synthesizer -/

/-- R151: the two-branch noise formula, in both branches within its half-open band around a positive mean; `u = 0` gives the mean, and for a
negative mean and `u > 0` the plus branch is below it; `Sample(25, 1, 6, 1/2) = 31.25`, `Sample(80, 5, 5, 1/2) = 76`. -/
def Obligations.SampleFollowsTheFormula : Prop :=
  (∀ (mean sigma : REAL) (k : Fin 10) (u : UnitReal), 6 ≤ k.val → sample mean sigma k u = mean * (1 + u.val / (2 * sigma))) ∧
  (∀ (mean sigma : REAL) (k : Fin 10) (u : UnitReal), k.val ≤ 5 → sample mean sigma k u = mean * (1 - u.val / (2 * sigma))) ∧
  (∀ (mean sigma : REAL) (k : Fin 10) (u : UnitReal), u.val = 0 → sample mean sigma k u = mean) ∧
  (∀ (mean sigma : REAL) (k : Fin 10) (u : UnitReal), 0 < mean → 0 < sigma →
    mean * (1 - 1 / (2 * sigma)) < sample mean sigma k u ∧ sample mean sigma k u < mean * (1 + 1 / (2 * sigma))) ∧
  (∀ (mean sigma : REAL) (k : Fin 10) (u : UnitReal), mean < 0 → 0 < sigma → 6 ≤ k.val → 0 < u.val →
    sample mean sigma k u < mean) ∧
  (∀ u : UnitReal, u.val = 1 / 2 → sample 25 1 6 u = 31.25 ∧ sample 80 5 5 u = 76)

/-- The rounded temperature code of every pair of draws is in 22135..31459, under both tie rules (R153, R163; D9). -/
def Obligations.TemperatureCodeRange : Prop :=
  ∀ (ties : RoundTies) (k : Fin 10) (u : UnitReal),
    22135 ≤ roundReal ties (temperatureScaled (temperatureOf k u)) ∧
    roundReal ties (temperatureScaled (temperatureOf k u)) ≤ 31459

/-- The humidity is clamped to [1, 99] whatever the mean, so its rounded code is in 3670..55050; for the means 150 and -10 it is 99 and 1 for
every pair of draws, and from the default 80 the sample is not clamped (R154, R155, R163; D9). -/
def Obligations.HumidityClampAndCodeRange : Prop :=
  (∀ (ties : RoundTies) (mean : REAL) (k : Fin 10) (u : UnitReal),
    1 ≤ humidityOf mean k u ∧ humidityOf mean k u ≤ 99 ∧
    3670 ≤ roundReal ties (humidityScaled (humidityOf mean k u)) ∧
    roundReal ties (humidityScaled (humidityOf mean k u)) ≤ 55050) ∧
  (∀ (k : Fin 10) (u : UnitReal), humidityOf 150 k u = 99 ∧ humidityOf (-10) k u = 1 ∧
    humidityOf 80 k u = sample 80 5 k u)

/-- `Sat16` is the identity on 0..65535 and saturates outside, and the 16-bit code of a rounded value is that value (R156; whether REAL is
exact or within 1 is D8, log entry 13). -/
def Obligations.CodesAreExactOrWithinOne : Prop :=
  (∀ n : Int, n < 0 → code16 n = 0x0000#16) ∧
  (∀ n : Int, 0 ≤ n → n ≤ 65535 → ((code16 n).toNat : Int) = n) ∧
  (∀ n : Int, 65535 < n → code16 n = 0xFFFF#16) ∧
  (∀ (p : Params) (t h : REAL), p.real = .exact →
    temperatureRounded p t = roundReal p.roundTies (temperatureScaled t) ∧
    humidityRounded p h = roundReal p.roundTies (humidityScaled h)) ∧
  (∀ (p : Params) (t h : REAL),
    |temperatureRounded p t - roundReal p.roundTies (temperatureScaled t)| ≤ 1 ∧
    |humidityRounded p h - roundReal p.roundTies (humidityScaled h)| ≤ 1)

/-- The tie rule cannot be observed: under the exact REAL, changing `ROUND_TIES` changes no register, no draw, no result and no event of any
operation (R156; D9, log entry 14). -/
def Obligations.RoundTiesAreUnobservable : Prop :=
  ∀ (i : Instr) (s : State) (ties : RoundTies), s.params.real = .exact → ∃ u v,
    exec i s = .next u ∧ exec i { s with params := { s.params with roundTies := ties } } = .next v ∧
      v.regs = u.regs ∧ v.rng = u.rng ∧ v.result = u.result ∧ v.diag = u.diag

/-- R159: temperature packing is the source's table in each mode; byte0 is bits 15:8 of the code, byte1 the next bits left-justified with
zeros below, bits 1:0 always 0; `0x68AD` packs to `68 AC`, `68 A0`, `68 A8`, `68 A0`. -/
def Obligations.TemperaturePackingTable : Prop :=
  (∀ (ur : Byte) (c : Code),
    let m := modeOf ur
    let n := temperatureBits m
    let cN := c.toNat / 2 ^ (16 - n)
    (m = 0x00#8 ∧ n = 14 ∨ m = 0x01#8 ∧ n = 12 ∨ m = 0x80#8 ∧ n = 13 ∨ m = 0x81#8 ∧ n = 11) ∧
    (packTemp c m).hi.toNat = cN / 2 ^ (n - 8) ∧
    (packTemp c m).hi = c.extractLsb' 8 8 ∧
    (packTemp c m).lo.toNat = cN % 2 ^ (n - 8) * 2 ^ (16 - n) ∧
    (∀ i, 16 - n ≤ i → i < 8 → (packTemp c m).lo.getLsbD i = c.getLsbD i) ∧
    (∀ i, i < 16 - n → (packTemp c m).lo.getLsbD i = false) ∧
    statusBits (packTemp c m) = 0b00#2) ∧
  packTemp 0x68AD#16 0x00#8 = ⟨0x68#8, 0xAC#8⟩ ∧ packTemp 0x68AD#16 0x01#8 = ⟨0x68#8, 0xA0#8⟩ ∧
  packTemp 0x68AD#16 0x80#8 = ⟨0x68#8, 0xA8#8⟩ ∧ packTemp 0x68AD#16 0x81#8 = ⟨0x68#8, 0xA0#8⟩

/-- Humidity packing is the source's table in each mode, with the status pattern `0x2`, for which adding and ORing are the same (R160, R161;
the N-bit reading is D21, log entry 18). -/
def Obligations.HumidityPackingTable : Prop :=
  ∀ (ur : Byte) (c : Code),
    let m := modeOf ur
    let n := humidityBits m
    let cN := c.toNat / 2 ^ (16 - n)
    (m = 0x00#8 ∧ n = 12 ∨ m = 0x01#8 ∧ n = 8 ∨ m = 0x80#8 ∧ n = 10 ∨ m = 0x81#8 ∧ n = 11) ∧
    (packHum c m).hi.toNat = cN / 2 ^ (n - 8) ∧
    (packHum c m).hi = c.extractLsb' 8 8 ∧
    (packHum c m).lo.toNat = cN % 2 ^ (n - 8) * 2 ^ (16 - n) + 2 ∧
    (packHum c m).lo.toNat = cN % 2 ^ (n - 8) * 2 ^ (16 - n) ||| 2 ∧
    statusBits (packHum c m) = 0b10#2

/-- Packing then unpacking recovers the N most significant bits of the code exactly, and the code up to its dropped low bits, in each mode and
for both quantities (R162; C2, D21, log entry 18). -/
def Obligations.PackUnpackRecoversTheCode : Prop :=
  ∀ (ur : Byte) (c : Code),
    unpack (temperatureBits (modeOf ur)) (packTemp c (modeOf ur)) = c >>> (16 - temperatureBits (modeOf ur)) ∧
    unpack (humidityBits (modeOf ur)) (packHum c (modeOf ur)) = c >>> (16 - humidityBits (modeOf ur)) ∧
    c.toNat - (unpack (temperatureBits (modeOf ur)) (packTemp c (modeOf ur))).toNat * 2 ^ (16 - temperatureBits (modeOf ur))
      < 2 ^ (16 - temperatureBits (modeOf ur)) ∧
    c.toNat - (unpack (humidityBits (modeOf ur)) (packHum c (modeOf ur))).toNat * 2 ^ (16 - humidityBits (modeOf ur))
      < 2 ^ (16 - humidityBits (modeOf ur))

/-- Bits 6:1 of `userRegister` affect no measurement: two user registers that agree on bits 7 and 0 give the same codes and the same poll
response (R22, R23). -/
def Obligations.ReservedBitsAffectNothing : Prop :=
  ∀ (v : Byte) (t : Tail) (s : State), v.getLsbD 7 = s.regs.userRegister.getLsbD 7 → v.getLsbD 0 = s.regs.userRegister.getLsbD 0 →
    ∀ i : Instr, (i = .rdMeasHm t ∨ i = .rdMeasPoll t) → ∃ u w,
      exec i s = .next u ∧ exec i (setUser v s) = .next w ∧ w = setUser v u

/-- A measurement command consumes exactly four draws and every other operation none, a `WRITE` by the command its frame decodes to (R165,
R245; D10, log entry 15). -/
def Obligations.DrawsPerOperation : Prop :=
  ∀ (i : Instr) (s : State), ∃ u, exec i s = .next u ∧
    u.rng =
      if (resolved s.params.frameLayout i).kind = .measuring then ⟨s.rng.script.drop 4, s.rng.drawn + 4⟩ else s.rng

/-! ## Checksums and frames -/

/-- The CRC is linear over XOR, 0 on zeros, and a block followed by its own CRC has CRC 0 (R180; no reflection and no final XOR is D15, log
entry 17); `CRC8(80) = 7A`, `CRC8(01) = 31`, `CRC8(68 AC) = E3`, `CRC8(B0 22) = 75`. -/
def Obligations.CrcIsLinear : Prop :=
  (∀ a b : List Byte, a.length = b.length → crc8 (List.zipWith (· ^^^ ·) a b) = crc8 a ^^^ crc8 b) ∧
  (∀ n : Nat, crc8 (List.replicate n 0x00#8) = 0x00#8) ∧
  (∀ s : List Byte, crc8 (s ++ [crc8 s]) = 0x00#8) ∧
  crc8 [0x80#8] = 0x7A#8 ∧ crc8 [0x01#8] = 0x31#8 ∧ crc8 [0x68#8, 0xAC#8] = 0xE3#8 ∧ crc8 [0xB0#8, 0x22#8] = 0x75#8

/-- The XOR of a whole write and of the response it builds is 0; the order of the bytes does not matter; an all-zero payload adds nothing
(R182, R184). -/
def Obligations.FrameChecksumCancels : Prop :=
  (∀ w p : List Byte, xorSum (w ++ buildResponse w p) = 0x00#8) ∧
  (∀ a b : List Byte, a.Perm b → xorSum a = xorSum b) ∧
  (∀ (w : List Byte) (n : Nat), buildResponse w (List.replicate n 0x00#8) = List.replicate n 0x00#8 ++ [xorSum w])

/-- R187: in the response of a poll or of a measurement read-setup the bytes at offsets 2 and 5 are CRC-8 values of the pairs before them, the
last byte is the XOR value, and the master's three tests hold, whatever was measured; the last byte of every response a write builds is the
XOR value. -/
def Obligations.MasterVerifiesAMeasurement : Prop :=
  (∀ (i : Instr) (t : Tail) (s : State) (w : List Byte), (i = .rdMeasPoll t ∨ i = .sdMeasHm t) → encode i = some w →
    ∃ u t0 t1 ct h0 h1 ch x, exec i s = .next u ∧ u.regs.pendingResponse = [t0, t1, ct, h0, h1, ch, x] ∧
      crc8 [t0, t1] = ct ∧ crc8 [h0, h1] = ch ∧ xorSum (w ++ u.regs.pendingResponse) = 0x00#8 ∧
      x = xorSum (w ++ [t0, t1, ct, h0, h1, ch])) ∧
  (∀ (i : Instr) (s : State) (w : List Byte), (i.kind = .sending ∨ ∃ t, i = .rdMeasPoll t) → encode i = some w →
    ∃ u p, exec i s = .next u ∧ u.regs.pendingResponse = p ++ [xorSum (w ++ p)])

/-- The length of the response after each operation: 7 for a poll and a measurement read-setup, 2, 10, 8 for the user register and the two
placeholders, the default payload and one byte for SD.OTHER; the resets leave `RESET_RESPONSE` and no other operation changes the
response (R185; D3, D6). -/
def Obligations.WhichOperationsBuildAResponse : Prop :=
  ∀ (i : Instr) (s : State), ∃ u, exec i s = .next u ∧
    match resolved s.params.frameLayout i with
    | .rdMeasPoll _ => u.regs.pendingResponse.length = 7
    | .sdMeasHm _ => u.regs.pendingResponse.length = 7
    | .sdUserread _ => u.regs.pendingResponse.length = 2
    | .sdOcm1 _ => u.regs.pendingResponse.length = 10
    | .sdOcm2 _ => u.regs.pendingResponse.length = 8
    | .sdOther _ _ => u.regs.pendingResponse.length = s.params.defaultPayload.length + 1
    | .reset => u.regs.pendingResponse = s.params.resetResponse
    | .rdSoftreset _ => u.regs.pendingResponse = s.params.resetResponse
    | _ => u.regs.pendingResponse = s.regs.pendingResponse

/-! ## Hazards -/

/-- R234: after RD.MEAS_HM, RD.USERWRITE, RD.USERREAD, IDLE.ANY, UNK.ANY, a short write, or any other operation that is neither a reset nor a
response-building write, the response is what it was before, and a `READ` returns it; a read-setup sent after a UserWrite of `dd` returns `dd`, one sent before it the old value. -/
def Obligations.StaleResponse : Prop :=
  (∀ (i : Instr) (s : State),
    (∃ t, i = .rdMeasHm t ∨ i = .rdUserwrite t ∨ i = .rdUserread t ∨ i = .rdOcm1 t ∨ i = .rdOcm2 t) ∨
      (∃ code t, i = .idleAny code t) ∨ (∃ sel code t, i = .unkAny sel code t) ∨ (∃ b, i = .short b) ∨ (∃ code t, i = .rdOther code t) ∨
      (∃ n, i = .read n) ∨ (∃ v, i = .setMeanHumidity v) ∨ i = .getMeanHumidity →
    ∃ u, exec i s = .next u ∧ u.regs.pendingResponse = s.regs.pendingResponse ∧
      ∀ count, ∃ v, exec (.read count) u = .next v ∧ v.result = .bytes s.regs.pendingResponse) ∧
  (∀ (dd : Byte) (excess : List Byte) (s : State), ∃ u v w,
    exec (.rdUserwrite (.data dd excess)) s = .next u ∧ exec (.sdUserread .none) u = .next v ∧
      exec (.read 0) v = .next w ∧ w.result = .bytes [dd, xorSum [0xFC#8, 0xE7#8, dd]]) ∧
  (∀ (dd : Byte) (excess : List Byte) (s : State), ∃ u v w,
    exec (.sdUserread .none) s = .next u ∧ exec (.rdUserwrite (.data dd excess)) u = .next v ∧
      exec (.read 0) v = .next w ∧
      w.result = .bytes [s.regs.userRegister, xorSum [0xFC#8, 0xE7#8, s.regs.userRegister]])

/-- R235: after the HM measurement the new measurement is in the codes only, and a `READ` does not return it until the read-setup write has
built the response; after the poll it is ready at once. -/
def Obligations.HmNeedsAReadSetup : Prop :=
  ∀ s : State,
    (∃ u v r, exec (.rdMeasHm .none) s = .next u ∧
      u.regs.lastTemperatureCode = measuredTemperature s ∧ u.regs.lastHumidityCode = measuredHumidity s ∧
      (∃ r0, exec (.read 0) u = .next r0 ∧ r0.result = .bytes s.regs.pendingResponse) ∧
      exec (.sdMeasHm .none) u = .next v ∧ exec (.read 0) v = .next r ∧
      r.result = .bytes (buildResponse [0xFC#8, 0x2C#8] (frame6 (measuredTemperature s) (measuredHumidity s)))) ∧
    (∃ u r, exec (.rdMeasPoll .none) s = .next u ∧ exec (.read 0) u = .next r ∧
      r.result =
        .bytes (buildResponse [0xF3#8, 0x2D#8, 0x2C#8, 0x06#8] (frame6 (measuredTemperature s) (measuredHumidity s))))

/-- The resolution is fixed at measurement time: a UserWrite between the measurement and the read-setup does not change the bytes (R236). -/
def Obligations.ResolutionIsFixedAtMeasurement : Prop :=
  ∀ (dd : Byte) (s : State), ∃ u v w, exec (.rdMeasHm .none) s = .next u ∧ exec (.rdUserwrite (.data dd [])) u = .next v ∧
    exec (.sdMeasHm .none) v = .next w ∧ w.regs.userRegister = dd ∧
    w.regs.pendingResponse =
      buildResponse [0xFC#8, 0x2C#8] (frame6 (measuredTemperature s) (measuredHumidity s))

/-- The stale data latch: a UserWrite with no data byte stores the data byte of the latest write that had one, in whatever phase and however
many operations without a data byte stand in between; with a reset as the latest of the two it stores 0 (R237; D4, D18, D25, log
entries 5, 7, 8). -/
def Obligations.StaleDataLatch : Prop :=
  (∀ (i : Instr) (code : Option Code) (dd : Byte) (excess : List Byte) (between : List Instr) (s : State),
    (resolved s.params.frameLayout i).latches = some (code, .data dd excess) →
    (resolved s.params.frameLayout i).kind ≠ .softReset →
    (∀ j ∈ between, (resolved s.params.frameLayout j).keepsData = true) →
    ∃ u v, execAll (i :: between) s = .next u ∧ exec (.rdUserwrite .none) u = .next v ∧ v.regs.userRegister = dd) ∧
  (∀ (i : Instr) (between : List Instr) (s : State),
    (i = .reset ∨ (resolved s.params.frameLayout i).kind = .softReset) →
    (∀ j ∈ between, (resolved s.params.frameLayout j).keepsData = true) →
    ∃ u v, execAll (i :: between) s = .next u ∧ exec (.rdUserwrite .none) u = .next v ∧ v.regs.userRegister = 0x00#8)

/-! ## Anomalies and caller domains -/

/-- The diagnostic event of a `WRITE` with `DIAG` on, in the order of R207: length, state-select, register code; a measurement never saturates
(R201 to R205; the cause codes and `DIAG` are D13, log entry 21). -/
def Obligations.DiagnosticEventOfAWrite : Prop :=
  ∀ (b : List Byte) (s : State), s.params.diag = true → ∃ u, exec (.write b) s = .next u ∧
    u.diag =
      match parseFrame s.params.frameLayout b with
      | .short _ => .shortWrite b.length
      | .noRegister _ => .unknownCode none
      | .full sel code _ =>
        if sel ≠ 0x0000#16 ∧ sel ≠ 0xF32D#16 ∧ sel ≠ 0x00FC#16 then .unknownState sel
        else if sel ≠ 0x0000#16 ∧ recognized.contains code = false then .unknownCode (some code)
        else .none

/-- R209: an anomaly in one operation has no influence on the next: whatever event was recorded before, the registers, the draws and the
result of an operation are the same, and with `DIAG` on so is its own event. -/
def Obligations.AnomaliesAreNotSticky : Prop :=
  ∀ (i : Instr) (s : State) (e : DiagEvent), ∃ u v, exec i s = .next u ∧ exec i { s with diag := e } = .next v ∧
    v.regs = u.regs ∧ PortsKept u v ∧ v.result = u.result ∧ (s.params.diag = true → v.diag = u.diag)

/-- With `DIAG` off nothing is recorded and everything else is the same (R201; D13, log entry 21). -/
def Obligations.DiagOffChangesNothingElse : Prop :=
  ∀ (i : Instr) (s : State), ∃ u v, exec i s = .next u ∧
    exec i { s with params := { s.params with diag := false } } = .next v ∧
    v.regs = u.regs ∧ v.rng = u.rng ∧ v.arrivals = u.arrivals ∧ v.result = u.result ∧ v.diag = s.diag

/-- No operation of the bus master sets `meanHumidity`: it is as before, or the operation is a soft reset and it is 80 (R211, R240; the two
domains are D14, and that a soft reset reaches it is D18, log entries 7, 27). -/
def Obligations.BusMasterCannotSetTheMean : Prop :=
  ∀ (i : Instr) (s : State), i.port = .bus → ∃ u, exec i s = .next u ∧
    (if (resolved s.params.frameLayout i).kind = .softReset then u.regs.meanHumidity = 80
     else u.regs.meanHumidity = s.regs.meanHumidity)

/-- No operation changes the configuration or takes an arrival off the ports (R34; log entries 20, 23). -/
def Obligations.ConfigurationIsFixed : Prop :=
  ∀ (i : Instr) (s : State), ∃ u, exec i s = .next u ∧ u.params = s.params ∧ u.arrivals = s.arrivals

/-- Under POSITIONAL the ReceivingData phase is unreachable: from registers with the reset value in `userRegister` and no measurement, every
step keeps them so and draws nothing (R77; D1, log entry 1). -/
def Obligations.PositionalNeverMeasures : Prop :=
  (∀ (b : List Byte), (decode .positional b).kind ≠ .receiving ∧ (decode .positional b).kind ≠ .measuring ∧
    (decode .positional b).kind ≠ .softReset) ∧
  (∀ s u : State, s.params.frameLayout = .positional → s.regs.userRegister = 0x3A#8 →
    s.regs.lastTemperatureCode = ⟨0x00#8, 0x00#8⟩ → s.regs.lastHumidityCode = ⟨0x00#8, 0x00#8⟩ → step s = .next u →
    u.params.frameLayout = .positional ∧ u.regs.userRegister = 0x3A#8 ∧
    u.regs.lastTemperatureCode = ⟨0x00#8, 0x00#8⟩ ∧ u.regs.lastHumidityCode = ⟨0x00#8, 0x00#8⟩ ∧ u.rng = s.rng)

/-! ## The invariant -/

/-- Every step from a state with the invariant ends in one: the phase is Idle or SendingData, the response is at most 10 bytes and one that a
reset or a write builds, each measurement is in its range with its status bits, or both are those of reset (R21, R26 to R28, R161, R163;
the response lengths rest on D3, D6; the code ranges hold for an inexact REAL too, log entry 13). -/
def Obligations.StepKeepsTheInvariant : Prop :=
  ∀ s u : State, Inv s → step s = .next u → Inv u

/-- The invariant holds right after reset. -/
def Obligations.ResetHasTheInvariant : Prop :=
  Inv State.reset

/-- The very next step of `withFetchWord` executes the instruction of the word's frame at the state as it was (the bit numbering is the model's
reading, log entry 24). -/
def Obligations.FetchWordRunsNext : Prop :=
  ∀ (s : State) (nbits w : Nat), deliverable s.params (tableFrame nbits w) = true →
    step (s.withFetchWord nbits w) = exec (decode s.params.frameLayout (tableFrame nbits w)) s
end

