-- ==== Sys2Proof/Laws/Checksum.lean ====
section
/-! SUPPORT. The checksums over concatenations (R180, R182). -/

namespace Sys2Proof.Machine

theorem foldl_xor (s : List Byte) (a : Byte) : s.foldl (· ^^^ ·) a = a ^^^ xorSum s := by
  induction s generalizing a with
  | nil => simp [xorSum]
  | cons d s ih =>
    have h := ih d
    simp only [List.foldl_cons, xorSum, BitVec.zero_xor] at *
    rw [ih (a ^^^ d), h, BitVec.xor_assoc]

theorem xorSum_cons (d : Byte) (s : List Byte) : xorSum (d :: s) = d ^^^ xorSum s := by
  simpa [xorSum] using foldl_xor s d

theorem xorSum_append (a b : List Byte) : xorSum (a ++ b) = xorSum a ^^^ xorSum b := by
  simpa [xorSum] using foldl_xor b (xorSum a)

theorem crc8_append (a b : List Byte) : crc8 (a ++ b) = b.foldl crcByte (crc8 a) := by
  simp [crc8]

theorem buildResponse_length (w p : List Byte) : (buildResponse w p).length = p.length + 1 := by
  simp [buildResponse]

end Sys2Proof.Machine
end

