-- ==== Sys2Proof/Laws/State.lean ====
section
/-! SUPPORT. One lemma per field of State per update, true by unfolding, so that no proof unfolds a record update. -/

namespace Sys2Proof.Machine

@[simp] theorem resetState_regs (s : State) : (resetState s).regs = Registers.reset s.params := rfl
@[simp] theorem resetState_params (s : State) : (resetState s).params = s.params := rfl
@[simp] theorem resetState_arrivals (s : State) : (resetState s).arrivals = s.arrivals := rfl
@[simp] theorem resetState_rng (s : State) : (resetState s).rng = s.rng := rfl
@[simp] theorem resetState_result (s : State) : (resetState s).result = s.result := rfl
@[simp] theorem resetState_diag (s : State) : (resetState s).diag = s.diag := rfl

@[simp] theorem setPhase_regs (p : Phase) (s : State) : (setPhase p s).regs = { s.regs with state := p } := rfl
@[simp] theorem setPhase_params (p : Phase) (s : State) : (setPhase p s).params = s.params := rfl
@[simp] theorem setPhase_arrivals (p : Phase) (s : State) : (setPhase p s).arrivals = s.arrivals := rfl
@[simp] theorem setPhase_rng (p : Phase) (s : State) : (setPhase p s).rng = s.rng := rfl
@[simp] theorem setPhase_result (p : Phase) (s : State) : (setPhase p s).result = s.result := rfl
@[simp] theorem setPhase_diag (p : Phase) (s : State) : (setPhase p s).diag = s.diag := rfl

@[simp] theorem setAddress_regs (c : Code) (s : State) : (setAddress c s).regs = { s.regs with registerAddress := c } := rfl
@[simp] theorem setAddress_params (c : Code) (s : State) : (setAddress c s).params = s.params := rfl
@[simp] theorem setAddress_arrivals (c : Code) (s : State) : (setAddress c s).arrivals = s.arrivals := rfl
@[simp] theorem setAddress_rng (c : Code) (s : State) : (setAddress c s).rng = s.rng := rfl
@[simp] theorem setAddress_result (c : Code) (s : State) : (setAddress c s).result = s.result := rfl
@[simp] theorem setAddress_diag (c : Code) (s : State) : (setAddress c s).diag = s.diag := rfl

@[simp] theorem setData_regs (d : Byte) (s : State) : (setData d s).regs = { s.regs with registerData := d } := rfl
@[simp] theorem setData_params (d : Byte) (s : State) : (setData d s).params = s.params := rfl
@[simp] theorem setData_arrivals (d : Byte) (s : State) : (setData d s).arrivals = s.arrivals := rfl
@[simp] theorem setData_rng (d : Byte) (s : State) : (setData d s).rng = s.rng := rfl
@[simp] theorem setData_result (d : Byte) (s : State) : (setData d s).result = s.result := rfl
@[simp] theorem setData_diag (d : Byte) (s : State) : (setData d s).diag = s.diag := rfl

@[simp] theorem setUser_regs (v : Byte) (s : State) : (setUser v s).regs = { s.regs with userRegister := v } := rfl
@[simp] theorem setUser_params (v : Byte) (s : State) : (setUser v s).params = s.params := rfl
@[simp] theorem setUser_arrivals (v : Byte) (s : State) : (setUser v s).arrivals = s.arrivals := rfl
@[simp] theorem setUser_rng (v : Byte) (s : State) : (setUser v s).rng = s.rng := rfl
@[simp] theorem setUser_result (v : Byte) (s : State) : (setUser v s).result = s.result := rfl
@[simp] theorem setUser_diag (v : Byte) (s : State) : (setUser v s).diag = s.diag := rfl

@[simp] theorem setTemperature_regs (p : Packed) (s : State) : (setTemperature p s).regs = { s.regs with lastTemperatureCode := p } := rfl
@[simp] theorem setTemperature_params (p : Packed) (s : State) : (setTemperature p s).params = s.params := rfl
@[simp] theorem setTemperature_arrivals (p : Packed) (s : State) : (setTemperature p s).arrivals = s.arrivals := rfl
@[simp] theorem setTemperature_rng (p : Packed) (s : State) : (setTemperature p s).rng = s.rng := rfl
@[simp] theorem setTemperature_result (p : Packed) (s : State) : (setTemperature p s).result = s.result := rfl
@[simp] theorem setTemperature_diag (p : Packed) (s : State) : (setTemperature p s).diag = s.diag := rfl

@[simp] theorem setHumidity_regs (p : Packed) (s : State) : (setHumidity p s).regs = { s.regs with lastHumidityCode := p } := rfl
@[simp] theorem setHumidity_params (p : Packed) (s : State) : (setHumidity p s).params = s.params := rfl
@[simp] theorem setHumidity_arrivals (p : Packed) (s : State) : (setHumidity p s).arrivals = s.arrivals := rfl
@[simp] theorem setHumidity_rng (p : Packed) (s : State) : (setHumidity p s).rng = s.rng := rfl
@[simp] theorem setHumidity_result (p : Packed) (s : State) : (setHumidity p s).result = s.result := rfl
@[simp] theorem setHumidity_diag (p : Packed) (s : State) : (setHumidity p s).diag = s.diag := rfl

@[simp] theorem setResponse_regs (r : List Byte) (s : State) : (setResponse r s).regs = { s.regs with pendingResponse := r } := rfl
@[simp] theorem setResponse_params (r : List Byte) (s : State) : (setResponse r s).params = s.params := rfl
@[simp] theorem setResponse_arrivals (r : List Byte) (s : State) : (setResponse r s).arrivals = s.arrivals := rfl
@[simp] theorem setResponse_rng (r : List Byte) (s : State) : (setResponse r s).rng = s.rng := rfl
@[simp] theorem setResponse_result (r : List Byte) (s : State) : (setResponse r s).result = s.result := rfl
@[simp] theorem setResponse_diag (r : List Byte) (s : State) : (setResponse r s).diag = s.diag := rfl

@[simp] theorem setMean_regs (v : REAL) (s : State) : (setMean v s).regs = { s.regs with meanHumidity := v } := rfl
@[simp] theorem setMean_params (v : REAL) (s : State) : (setMean v s).params = s.params := rfl
@[simp] theorem setMean_arrivals (v : REAL) (s : State) : (setMean v s).arrivals = s.arrivals := rfl
@[simp] theorem setMean_rng (v : REAL) (s : State) : (setMean v s).rng = s.rng := rfl
@[simp] theorem setMean_result (v : REAL) (s : State) : (setMean v s).result = s.result := rfl
@[simp] theorem setMean_diag (v : REAL) (s : State) : (setMean v s).diag = s.diag := rfl

@[simp] theorem returning_regs (r : OpResult) (s : State) : (returning r s).regs = s.regs := rfl
@[simp] theorem returning_params (r : OpResult) (s : State) : (returning r s).params = s.params := rfl
@[simp] theorem returning_arrivals (r : OpResult) (s : State) : (returning r s).arrivals = s.arrivals := rfl
@[simp] theorem returning_rng (r : OpResult) (s : State) : (returning r s).rng = s.rng := rfl
@[simp] theorem returning_result (r : OpResult) (s : State) : (returning r s).result = r := rfl
@[simp] theorem returning_diag (r : OpResult) (s : State) : (returning r s).diag = s.diag := rfl

@[simp] theorem beginOp_regs (s : State) : (beginOp s).regs = s.regs := rfl
@[simp] theorem beginOp_params (s : State) : (beginOp s).params = s.params := rfl
@[simp] theorem beginOp_arrivals (s : State) : (beginOp s).arrivals = s.arrivals := rfl
@[simp] theorem beginOp_rng (s : State) : (beginOp s).rng = s.rng := rfl
@[simp] theorem beginOp_result (s : State) : (beginOp s).result = .none := rfl
@[simp] theorem beginOp_diag (s : State) : (beginOp s).diag = if s.params.diag then .none else s.diag := rfl

@[simp] theorem raiseAnomaly_regs (e : DiagEvent) (s : State) : (raiseAnomaly e s).regs = s.regs := rfl
@[simp] theorem raiseAnomaly_params (e : DiagEvent) (s : State) : (raiseAnomaly e s).params = s.params := rfl
@[simp] theorem raiseAnomaly_arrivals (e : DiagEvent) (s : State) : (raiseAnomaly e s).arrivals = s.arrivals := rfl
@[simp] theorem raiseAnomaly_rng (e : DiagEvent) (s : State) : (raiseAnomaly e s).rng = s.rng := rfl
@[simp] theorem raiseAnomaly_result (e : DiagEvent) (s : State) : (raiseAnomaly e s).result = s.result := rfl
@[simp] theorem raiseAnomaly_diag (e : DiagEvent) (s : State) : (raiseAnomaly e s).diag = if s.params.diag ∧ s.diag = .none then e else s.diag := rfl

@[simp] theorem advanceRng_regs (s : State) : (advanceRng s).regs = s.regs := rfl
@[simp] theorem advanceRng_params (s : State) : (advanceRng s).params = s.params := rfl
@[simp] theorem advanceRng_arrivals (s : State) : (advanceRng s).arrivals = s.arrivals := rfl
@[simp] theorem advanceRng_rng (s : State) : (advanceRng s).rng = ⟨s.rng.script.tail, s.rng.drawn + 1⟩ := rfl
@[simp] theorem advanceRng_result (s : State) : (advanceRng s).result = s.result := rfl
@[simp] theorem advanceRng_diag (s : State) : (advanceRng s).diag = s.diag := rfl

@[simp] theorem popArrival_regs (s : State) : (popArrival s).regs = s.regs := rfl
@[simp] theorem popArrival_params (s : State) : (popArrival s).params = s.params := rfl
@[simp] theorem popArrival_arrivals (s : State) : (popArrival s).arrivals = s.arrivals.tail := rfl
@[simp] theorem popArrival_rng (s : State) : (popArrival s).rng = s.rng := rfl
@[simp] theorem popArrival_result (s : State) : (popArrival s).result = s.result := rfl
@[simp] theorem popArrival_diag (s : State) : (popArrival s).diag = s.diag := rfl

@[simp] theorem presentWrite_regs (b : List Byte) (s : State) : (presentWrite b s).regs = s.regs := rfl
@[simp] theorem presentWrite_params (b : List Byte) (s : State) : (presentWrite b s).params = s.params := rfl
@[simp] theorem presentWrite_arrivals (b : List Byte) (s : State) : (presentWrite b s).arrivals = .one (.write b) :: s.arrivals := rfl
@[simp] theorem presentWrite_rng (b : List Byte) (s : State) : (presentWrite b s).rng = s.rng := rfl
@[simp] theorem presentWrite_result (b : List Byte) (s : State) : (presentWrite b s).result = s.result := rfl
@[simp] theorem presentWrite_diag (b : List Byte) (s : State) : (presentWrite b s).diag = s.diag := rfl

end Sys2Proof.Machine
end

