-- ==== Sys2Proof/Laws/Ops.lean ====
section
/-! SUPPORT. One lemma per shared operation, saying all it does; proofs about instructions cite these and do not unfold the operations. -/

namespace Sys2Proof.Machine

/-! ## The start of a write (R101, R120, R121) -/

theorem beginWrite_regs (ph : Phase) (code : Option Code) (t : Tail) (s : State) :
    (beginWrite ph code t s).regs =
      { s.regs with
        state := ph
        registerAddress := code.getD s.regs.registerAddress
        registerData := t.data?.getD s.regs.registerData } := by
  cases code <;> cases t <;> rfl

theorem beginWrite_kept (ph : Phase) (code : Option Code) (t : Tail) (s : State) :
    PortsKept s (beginWrite ph code t s) := by
  cases code <;> cases t <;> exact ⟨rfl, rfl, rfl⟩

theorem beginWrite_result (ph : Phase) (code : Option Code) (t : Tail) (s : State) :
    (beginWrite ph code t s).result = .none := by
  cases code <;> cases t <;> rfl

theorem beginWrite_diag (ph : Phase) (code : Option Code) (t : Tail) (s : State) :
    (beginWrite ph code t s).diag = diagAfter s .none := by
  cases code <;> cases t <;> rfl

/-! ## Operations one after the other -/

@[simp] theorem execAll_nil (s : State) : execAll [] s = .next s := rfl

theorem execAll_cons {i : Instr} {s u : State} (rest : List Instr) (h : exec i s = .next u) :
    execAll (i :: rest) s = execAll rest u := by
  simp [execAll, h]

/-! ## Reset (R35) and anomalies (R201) -/

theorem resetState_kept (s : State) : PortsKept s (resetState s) := ⟨rfl, rfl, rfl⟩

theorem raiseAnomaly_kept (e : DiagEvent) (s : State) : PortsKept s (raiseAnomaly e s) := ⟨rfl, rfl, rfl⟩

/-- An anomaly raised where none was recorded yet in this operation is the operation's event. -/
theorem raiseAnomaly_diagAfter {e : DiagEvent} {s u : State} (hp : u.params = s.params) (hd : u.diag = diagAfter s .none) :
    (raiseAnomaly e u).diag = diagAfter s e := by
  cases h : s.params.diag <;> simp [hp, hd, diagAfter, h]

theorem raiseIfSaturated_regs (q : Quantity) (n : Int) (s : State) : (raiseIfSaturated q n s).regs = s.regs := by
  unfold raiseIfSaturated; split <;> rfl

theorem raiseIfSaturated_kept (q : Quantity) (n : Int) (s : State) : PortsKept s (raiseIfSaturated q n s) := by
  unfold raiseIfSaturated; split <;> exact ⟨rfl, rfl, rfl⟩

theorem raiseIfSaturated_result (q : Quantity) (n : Int) (s : State) : (raiseIfSaturated q n s).result = s.result := by
  unfold raiseIfSaturated; split <;> rfl

theorem raiseIfUnrecognized_regs (c : Code) (s : State) : (raiseIfUnrecognized c s).regs = s.regs := by
  unfold raiseIfUnrecognized; split <;> rfl

theorem raiseIfUnrecognized_kept (c : Code) (s : State) : PortsKept s (raiseIfUnrecognized c s) := by
  unfold raiseIfUnrecognized; split <;> exact ⟨rfl, rfl, rfl⟩

theorem raiseIfUnrecognized_result (c : Code) (s : State) : (raiseIfUnrecognized c s).result = s.result := by
  unfold raiseIfUnrecognized; split <;> rfl

/-! ## Draws: the answers depend on the random source alone -/

theorem int10Answer_of_rng {s u : State} (h : u.rng = s.rng) : int10Answer u = int10Answer s := by
  simp [int10Answer, h]

theorem unitAnswer_of_rng {s u : State} (h : u.rng = s.rng) : unitAnswer u = unitAnswer s := by
  simp [unitAnswer, h]

/-! ## Measuring (R150) -/

theorem measureTemperature_regs (s : State) :
    (measureTemperature s).regs = { s.regs with lastTemperatureCode := measuredTemperature s } := by
  simp [measureTemperature, raiseIfSaturated_regs, measuredTemperature, tempCode16]

theorem measureTemperature_params (s : State) : (measureTemperature s).params = s.params := by
  simp [measureTemperature, (raiseIfSaturated_kept _ _ _).params]

theorem measureTemperature_arrivals (s : State) : (measureTemperature s).arrivals = s.arrivals := by
  simp [measureTemperature, (raiseIfSaturated_kept _ _ _).arrivals]

theorem measureTemperature_result (s : State) : (measureTemperature s).result = s.result := by
  simp [measureTemperature, raiseIfSaturated_result]

theorem measureTemperature_rng (s : State) :
    (measureTemperature s).rng = (advanceRng (advanceRng s)).rng := by
  simp [measureTemperature, (raiseIfSaturated_kept _ _ _).rng]

theorem tail_four {α : Type} (l : List α) : l.tail.tail.tail.tail = l.drop 4 := by
  simp only [← List.drop_one, List.drop_drop]

/-- `Measure()` writes the two measurement codes and no other register (R150). -/
theorem performMeasure_regs (s : State) :
    (performMeasure s).regs =
      { s.regs with lastTemperatureCode := measuredTemperature s, lastHumidityCode := measuredHumidity s } := by
  have hk : int10Answer (measureTemperature s) = int10Answer (advanceRng (advanceRng s)) :=
    int10Answer_of_rng (measureTemperature_rng s)
  have hu : unitAnswer (advanceRng (measureTemperature s)) = unitAnswer (advanceRng (advanceRng (advanceRng s))) :=
    unitAnswer_of_rng (by simp [measureTemperature_rng])
  simp [performMeasure, measureHumidity, raiseIfSaturated_regs, measureTemperature_regs, measureTemperature_params, hk, hu,
    measuredHumidity, humCode16]

theorem performMeasure_drawn (s : State) : FourDrawn s (performMeasure s) where
  params := by simp [performMeasure, measureHumidity, (raiseIfSaturated_kept _ _ _).params, measureTemperature_params]
  arrivals := by simp [performMeasure, measureHumidity, (raiseIfSaturated_kept _ _ _).arrivals, measureTemperature_arrivals]
  rng := by
    simp [performMeasure, measureHumidity, (raiseIfSaturated_kept _ _ _).rng, measureTemperature_rng, tail_four]

theorem performMeasure_result (s : State) : (performMeasure s).result = s.result := by
  simp [performMeasure, measureHumidity, raiseIfSaturated_result, measureTemperature_result]

/-- A measurement depends on the mean, the mode, the parameters and the random source only. -/
theorem measured_congr {s u : State} (hp : u.params = s.params) (hr : u.rng = s.rng)
    (hu : u.regs.userRegister = s.regs.userRegister) (hm : u.regs.meanHumidity = s.regs.meanHumidity) :
    measuredTemperature u = measuredTemperature s ∧ measuredHumidity u = measuredHumidity s := by
  constructor <;>
    simp [measuredTemperature, measuredHumidity, int10Answer, unitAnswer, hp, hr, hu, hm]

end Sys2Proof.Machine
end

