-- ==== Sys2Proof/Laws/PerInstr.lean ====
section
/-! SUPPORT. The per-instruction families of LAWS.json. FrameLength: the frame of a write command has at least 2 bytes, that of SHORT
fewer (R70, R81, R202), and a port operation has no frame (R88). -/

namespace Sys2Proof.Laws.FrameLength

/-- The frame of `i`, where it has one, is shorter than 2 bytes exactly if `i` is SHORT. -/
def Statement (i : Instr) : Prop :=
  ∀ b, encode i = some b → (b.length < 2 ↔ i.kind = .short)

theorem codeBytes_length (c : Code) : 1 ≤ (codeBytes c).length := by
  unfold codeBytes; split <;> simp

theorem frame_length (sel c : Code) (t : Tail) : 2 ≤ (frame sel c t).length := by
  have h1 := codeBytes_length sel
  have h2 := codeBytes_length c
  simp only [frame, List.length_append]; omega

/-- A frame with both fields is not short. -/
theorem of_frame {i : Instr} {sel c : Code} {t : Tail} (he : encode i = some (frame sel c t)) (hk : i.kind ≠ .short) :
    Statement i := by
  intro b hb
  have h : b = frame sel c t := Option.some.inj (hb.symm.trans he)
  have := frame_length sel c t
  constructor
  · intro hl; rw [h] at hl; omega
  · exact fun hs => absurd hs hk

/-- A port operation has no frame. -/
theorem of_none {i : Instr} (he : encode i = none) : Statement i := by
  intro b hb; simp [he] at hb

theorem short (b : Option Byte) : Statement (.short b) := by
  cases b <;> simp [Statement, encode, Instr.kind]

theorem rdSoftreset (t : Tail) : Statement (.rdSoftreset t) := of_frame rfl (by simp [Instr.kind])

theorem rdUserwrite (t : Tail) : Statement (.rdUserwrite t) := of_frame rfl (by simp [Instr.kind])

theorem rdUserread (t : Tail) : Statement (.rdUserread t) := of_frame rfl (by simp [Instr.kind])

theorem rdMeasPoll (t : Tail) : Statement (.rdMeasPoll t) := of_frame rfl (by simp [Instr.kind])

theorem rdMeasHm (t : Tail) : Statement (.rdMeasHm t) := of_frame rfl (by simp [Instr.kind])

theorem rdOcm1 (t : Tail) : Statement (.rdOcm1 t) := of_frame rfl (by simp [Instr.kind])

theorem rdOcm2 (t : Tail) : Statement (.rdOcm2 t) := of_frame rfl (by simp [Instr.kind])

theorem rdOther (code : Option Code) (t : Tail) : Statement (.rdOther code t) := by
  cases code with
  | none =>
    have h : codeBytes selReceivingData = [0xF3#8, 0x2D#8] := by decide
    simp [Statement, encode, Instr.kind, h]
  | some c => exact of_frame rfl (by simp [Instr.kind])

theorem sdUserread (t : Tail) : Statement (.sdUserread t) := of_frame rfl (by simp [Instr.kind])

theorem sdMeasHm (t : Tail) : Statement (.sdMeasHm t) := of_frame rfl (by simp [Instr.kind])

theorem sdOcm1 (t : Tail) : Statement (.sdOcm1 t) := of_frame rfl (by simp [Instr.kind])

theorem sdOcm2 (t : Tail) : Statement (.sdOcm2 t) := of_frame rfl (by simp [Instr.kind])

theorem sdOther (code : Code) (t : Tail) : Statement (.sdOther code t) := of_frame rfl (by simp [Instr.kind])

theorem idleAny (code : Code) (t : Tail) : Statement (.idleAny code t) := of_frame rfl (by simp [Instr.kind])

theorem unkAny (sel code : Code) (t : Tail) : Statement (.unkAny sel code t) := of_frame rfl (by simp [Instr.kind])

theorem write (b : List Byte) : Statement (.write b) := of_none rfl

theorem read (count : Int) : Statement (.read count) := of_none rfl

theorem reset : Statement .reset := of_none rfl

theorem setMeanHumidity (v : REAL) : Statement (.setMeanHumidity v) := of_none rfl

theorem getMeanHumidity : Statement .getMeanHumidity := of_none rfl

end Sys2Proof.Laws.FrameLength
end

