-- ==== Sys2Proof/Tests/Slice0.lean ====
section
/-! SUPPORT. The model's own tests. Expected values come from 95_test_vectors.md (the part is named in each heading) or from the tables of
30_encoding.md; the witnesses at the end meet the hypotheses of the statements for the provers. -/

namespace Sys2Proof.Tests

open Sys2Proof Sys2Proof.Machine

/-! ## Helpers -/

def regsOf : Answer → Option Registers
  | .next u => some u.regs
  | .fault _ => none
  | .refused _ => none

/-- What one `WRITE` from a state leaves in the registers. -/
def wrote (b : List Byte) (s : State := State.reset) : Option Registers :=
  regsOf (exec (.write b) s)

/-- The response after one `WRITE`. -/
def response (b : List Byte) (s : State := State.reset) : Option (List Byte) :=
  (wrote b s).map (·.pendingResponse)

def resultOf : Answer → Option OpResult
  | .next u => some u.result
  | .fault _ => none
  | .refused _ => none

def diagOf : Answer → Option DiagEvent
  | .next u => some u.diag
  | .fault _ => none
  | .refused _ => none

/-- Reset registers but for the latches. -/
def latched (code : Code) (data : Byte := 0x00#8) (phase : Phase := .idle) : Registers :=
  { Registers.reset {} with state := phase, registerAddress := code, registerData := data }

def drawing (k1 : Fin 10) (u1 : Draw) (k2 : Fin 10) (u2 : Draw) (s : State := State.reset) : State :=
  load [.draw [.int10 k1, u1, .int10 k2, u2]] s

def positional : State := { State.reset with params := { frameLayout := .positional } }

def atPorts (a : List Arrival) (s : State := State.reset) : State := { s with arrivals := a }

/-- The answer one half to `DrawUnit()`. -/
def half : UnitReal := ⟨1 / 2, by norm_num, by norm_num⟩

def nought : UnitReal := ⟨0, by norm_num, by norm_num⟩

/-! ## WellFormed refuses ill-formed terms -/

theorem test_wf_poll_code_is_not_hm : wellFormed .coded (.rdMeasHm (.data 0x06#8 [])) = false := by decide

theorem test_wf_absent_code_has_no_tail : wellFormed .coded (.rdOther none (.data 0x01#8 [])) = false := by decide

theorem test_wf_other_is_not_recognized : wellFormed .coded (.rdOther (some 0x00E6#16) .none) = false := by decide

theorem test_wf_soft_reset_is_not_other : wellFormed .coded (.rdOther (some 0x0030#16) (.data 0xA2#8 [])) = false := by decide

theorem test_wf_two_byte_code : wellFormed .coded (.rdOther (some 0x1234#16) .none) = false := by decide

theorem test_wf_sd_other_has_no_response : wellFormed .coded (.sdOther 0x00E7#16 .none) = false := by decide

theorem test_wf_sd_meas_hm_data :
    wellFormed .coded (.sdMeasHm (.data 0x06#8 [])) = false ∧ wellFormed .positional (.sdMeasHm (.data 0x06#8 [])) = true := by
  decide

theorem test_wf_idle_code : wellFormed .coded (.idleAny 0x0100#16 .none) = false := by decide

theorem test_wf_recognized_state_select :
    wellFormed .coded (.unkAny 0x0000#16 0x00E7#16 .none) = false ∧ wellFormed .coded (.unkAny 0x00FC#16 0x00E7#16 .none) = false ∧
    wellFormed .coded (.unkAny 0xF32D#16 0x00E7#16 .none) = false := by
  decide

theorem test_wf_f3_2d_is_receiving_data :
    wellFormed .coded (.unkAny 0x00F3#16 0x002D#16 .none) = false ∧
    wellFormed .positional (.unkAny 0x00F3#16 0x002D#16 .none) = true := by
  decide

theorem test_wf_receiving_needs_coded :
    ([.rdSoftreset .none, .rdUserwrite .none, .rdUserread .none, .rdMeasPoll .none, .rdMeasHm .none, .rdOcm1 .none,
      .rdOcm2 .none, .rdOther none .none, .rdOther (some 0x0099#16) .none] : List Instr).all
        (fun i => wellFormed .coded i && !wellFormed .positional i) = true := by
  decide

theorem test_wf_positional_code_is_one_byte :
    wellFormed .positional (.sdOther 0x2C06#16 .none) = false ∧ wellFormed .coded (.sdOther 0x2C06#16 .none) = true := by
  decide

/-! ## Decoding: one frame per row of the opcode table (30_encoding.md R78, R79, R81; vectors B1, B2) -/

theorem test_decode_short :
    decode .coded [] = .short none ∧ decode .positional [0xFC#8] = .short (some 0xFC#8) ∧ decodeTableWord 0 0 = some (.short none) := by
  decide

theorem test_decode_rd_softreset :
    decode .coded [0xF3#8, 0x2D#8, 0x30#8, 0xA2#8] = .rdSoftreset .none ∧
    decodeTableWord 32 0xF32D30A2 = some (.rdSoftreset .none) := by
  decide

theorem test_decode_rd_userwrite :
    decode .coded [0xF3#8, 0x2D#8, 0xE6#8, 0x05#8] = .rdUserwrite (.data 0x05#8 []) ∧
    decodeTableWord 24 0xF32DE6 = some (.rdUserwrite .none) := by
  decide

theorem test_decode_rd_userread :
    decode .coded [0xF3#8, 0x2D#8, 0xE7#8] = .rdUserread .none ∧ decodeTableWord 24 0xF32DE7 = some (.rdUserread .none) := by
  decide

theorem test_decode_rd_meas_poll :
    decode .coded [0xF3#8, 0x2D#8, 0x2C#8, 0x06#8, 0xAA#8] = .rdMeasPoll (.data 0xAA#8 []) ∧
    decodeTableWord 32 0xF32D2C06 = some (.rdMeasPoll .none) := by
  decide

theorem test_decode_rd_meas_hm :
    decode .coded [0xF3#8, 0x2D#8, 0x2C#8, 0x05#8] = .rdMeasHm (.data 0x05#8 []) ∧
    decodeTableWord 24 0xF32D2C = some (.rdMeasHm .none) := by
  decide

theorem test_decode_rd_ocm :
    decode .coded [0xF3#8, 0x2D#8, 0xFA#8] = .rdOcm1 .none ∧ decode .coded [0xF3#8, 0x2D#8, 0xFC#8] = .rdOcm2 .none ∧
    decodeTableWord 24 0xF32DFA = some (.rdOcm1 .none) ∧ decodeTableWord 24 0xF32DFC = some (.rdOcm2 .none) := by
  decide

theorem test_decode_rd_other :
    decode .coded [0xF3#8, 0x2D#8, 0x30#8] = .rdOther (some 0x0030#16) .none ∧
    decode .coded [0xF3#8, 0x2D#8, 0x30#8, 0xA3#8] = .rdOther (some 0x0030#16) (.data 0xA3#8 []) ∧
    decodeTableWord 16 0xF32D = some (.rdOther none .none) := by
  decide

theorem test_decode_sd_userread :
    decode .coded [0xFC#8, 0xE7#8, 0x01#8, 0x02#8, 0x03#8] = .sdUserread (.data 0x01#8 [0x02#8, 0x03#8]) ∧
    decodeTableWord 16 0xFCE7 = some (.sdUserread .none) := by
  decide

theorem test_decode_sd_meas_hm :
    decode .coded [0xFC#8, 0x2C#8, 0x07#8] = .sdMeasHm (.data 0x07#8 []) ∧
    decode .positional [0xFC#8, 0x2C#8, 0x06#8] = .sdMeasHm (.data 0x06#8 []) ∧
    decodeTableWord 16 0xFC2C = some (.sdMeasHm .none) := by
  decide

theorem test_decode_sd_ocm :
    decode .coded [0xFC#8, 0xFA#8] = .sdOcm1 .none ∧ decode .coded [0xFC#8, 0xFC#8] = .sdOcm2 .none ∧
    decodeTableWord 16 0xFCFA = some (.sdOcm1 .none) ∧ decodeTableWord 16 0xFCFC = some (.sdOcm2 .none) := by
  decide

theorem test_decode_sd_other :
    decode .coded [0xFC#8, 0x2C#8, 0x06#8] = .sdOther 0x2C06#16 .none ∧
    decode .coded [0xFC#8, 0x30#8, 0xA2#8] = .sdOther 0x30A2#16 .none ∧
    decode .coded [0xFC#8, 0xF3#8, 0x2D#8] = .sdOther 0x00F3#16 (.data 0x2D#8 []) ∧
    decodeTableWord 8 0xFC = some (.sdOther 0x0000#16 .none) := by
  decide

theorem test_decode_idle_any :
    decode .coded [0x00#8, 0xE6#8, 0x99#8] = .idleAny 0x00E6#16 (.data 0x99#8 []) ∧
    decodeTableWord 8 0x00 = some (.idleAny 0x0000#16 .none) := by
  decide

theorem test_decode_unk_any :
    decode .coded [0xF3#8, 0x2C#8, 0x06#8] = .unkAny 0x00F3#16 0x2C06#16 .none ∧
    decode .coded [0x2D#8, 0xF3#8] = .unkAny 0x002D#16 0x00F3#16 .none ∧
    decode .positional [0xF3#8, 0x2D#8, 0x2C#8, 0x06#8] = .unkAny 0x00F3#16 0x002D#16 (.data 0x2C#8 [0x06#8]) ∧
    decode .positional [0xFD#8, 0xE6#8, 0x05#8] = .unkAny 0x00FD#16 0x00E6#16 (.data 0x05#8 []) := by
  decide

/-- The table's own words, read by the table's own rules, name the rows (R89). -/
theorem test_table_rows :
    (rdRows ++ otherRows).all
      (fun r => tableMnemonic .coded (tableFrame (8 * r.pattern.len) r.pattern.value) == some r.mnemonic
        || r.mnemonic == "UNK.ANY") = true := by
  decide +kernel

/-- A frame of R86's shorthands is the command it is named after. -/
theorem test_shorthands :
    decode .coded Shorthand.softReset.expand = .rdSoftreset .none ∧
    decode .coded (Shorthand.userWrite 0x05#8).expand = .rdUserwrite (.data 0x05#8 []) ∧
    decode .coded Shorthand.measHm.expand = .rdMeasHm .none ∧ decode .coded Shorthand.measPoll.expand = .rdMeasPoll .none ∧
    decode .coded Shorthand.setupUser.expand = .sdUserread .none ∧ decode .coded Shorthand.setupMeas.expand = .sdMeasHm .none ∧
    decode .coded Shorthand.setupOcm1.expand = .sdOcm1 .none ∧ decode .coded Shorthand.setupOcm2.expand = .sdOcm2 .none := by
  decide

/-! ## One step each (B3, S2, S7, B7) -/

theorem test_short :
    wrote [0xFC#8] = some (Registers.reset {}) ∧ diagOf (exec (.write [0xFC#8]) State.reset) = some (.shortWrite 1) := by
  decide +kernel

theorem test_soft_reset :
    wrote [0xF3#8, 0x2D#8, 0x30#8, 0xA2#8] (setMean 150 (setUser 0x81#8 (setData 0x77#8 State.reset))) =
      some (Registers.reset {}) := by
  decide +kernel

theorem test_userwrite :
    wrote [0xF3#8, 0x2D#8, 0xE6#8, 0x05#8] = some { latched 0x00E6#16 0x05#8 with userRegister := 0x05#8 } := by
  decide +kernel

/-- The stale latch (P4). -/
theorem test_userwrite_stale :
    wrote [0xF3#8, 0x2D#8, 0xE6#8] (setData 0x77#8 State.reset) =
      some { latched 0x00E6#16 0x77#8 with userRegister := 0x77#8 } := by
  decide +kernel

theorem test_rd_userread : wrote [0xF3#8, 0x2D#8, 0xE7#8] = some (latched 0x00E7#16) := by decide +kernel

theorem test_rd_ocm1 : wrote [0xF3#8, 0x2D#8, 0xFA#8] = some (latched 0x00FA#16) := by decide +kernel

theorem test_rd_ocm2 : wrote [0xF3#8, 0x2D#8, 0xFC#8] = some (latched 0x00FC#16) := by decide +kernel

theorem test_rd_other :
    wrote [0xF3#8, 0x2D#8, 0x99#8] = some (latched 0x0099#16) ∧
    diagOf (exec (.write [0xF3#8, 0x2D#8, 0x99#8]) State.reset) = some (.unknownCode (some 0x0099#16)) := by
  decide +kernel

theorem test_rd_other_absent :
    wrote [0xF3#8, 0x2D#8] (setAddress 0x00E6#16 State.reset) = some (latched 0x00E6#16) ∧
    diagOf (exec (.write [0xF3#8, 0x2D#8]) State.reset) = some (.unknownCode none) := by
  decide +kernel

/-- S6. -/
theorem test_poll :
    wrote [0xF3#8, 0x2D#8, 0x2C#8, 0x06#8] (drawing 0 (.frac 0 1) 0 (.frac 0 1)) =
      some
        { latched 0x2C06#16 with
          lastTemperatureCode := ⟨0x68#8, 0xAC#8⟩, lastHumidityCode := ⟨0xB0#8, 0x22#8⟩,
          pendingResponse := [0x68#8, 0xAC#8, 0xE3#8, 0xB0#8, 0x22#8, 0x75#8, 0x34#8] } := by
  decide +kernel

/-- P1: the 12-bit and 8-bit mode, whose bits are read from the user register `05`. -/
theorem test_poll_low_resolution :
    response [0xF3#8, 0x2D#8, 0x2C#8, 0x06#8] (setUser 0x05#8 (drawing 6 (.frac 1 2) 5 (.frac 1 2))) =
      some [0x71#8, 0xC0#8, 0x88#8, 0xA7#8, 0x02#8, 0x33#8, 0x5B#8] := by
  decide +kernel

/-- B3: the HM measurement builds no response. -/
theorem test_meas_hm :
    wrote [0xF3#8, 0x2D#8, 0x2C#8] (drawing 6 (.frac 1 2) 6 (.frac 1 2)) =
      some
        { latched 0x002C#16 with
          lastTemperatureCode := ⟨0x71#8, 0xC8#8⟩, lastHumidityCode := ⟨0xB8#8, 0x52#8⟩ } := by
  decide +kernel

theorem test_sd_userread :
    wrote [0xFC#8, 0xE7#8] =
      some { latched 0x00E7#16 0x00#8 .sendingData with pendingResponse := [0x3A#8, 0x21#8] } := by
  decide +kernel

/-- Excess bytes are in the checksum. -/
theorem test_sd_userread_excess : response [0xFC#8, 0xE7#8, 0x01#8, 0x02#8, 0x04#8] = some [0x3A#8, 0x26#8] := by decide +kernel

theorem test_sd_meas_hm_at_reset : response [0xFC#8, 0x2C#8] = some [0#8, 0#8, 0#8, 0#8, 0#8, 0#8, 0xD0#8] := by decide +kernel

/-- P2. -/
theorem test_sd_meas_hm :
    response [0xFC#8, 0x2C#8] (setTemperature ⟨0x71#8, 0xC8#8⟩ (setHumidity ⟨0xB8#8, 0x52#8⟩ State.reset)) =
      some [0x71#8, 0xC8#8, 0x31#8, 0xB8#8, 0x52#8, 0xBA#8, 0x08#8] := by
  decide +kernel

theorem test_sd_ocm1 : response [0xFC#8, 0xFA#8] = some [0#8, 0#8, 0#8, 0#8, 0#8, 0#8, 0#8, 0#8, 0#8, 0x06#8] := by decide +kernel

theorem test_sd_ocm2 : response [0xFC#8, 0xFC#8] = some [0#8, 0#8, 0#8, 0#8, 0#8, 0#8, 0#8, 0#8] := by decide +kernel

theorem test_sd_other :
    response [0xFC#8, 0x55#8] = some [0x00#8, 0xA9#8] ∧ response [0xFC#8, 0x00#8] = some [0x00#8, 0xFC#8] ∧
    response [0xFC#8, 0x2C#8, 0x06#8] = some [0x00#8, 0xD6#8] ∧
    diagOf (exec (.write [0xFC#8, 0x55#8]) State.reset) = some (.unknownCode (some 0x0055#16)) := by
  decide +kernel

theorem test_sd_other_recognized :
    wrote [0xFC#8, 0xE6#8, 0x77#8] =
      some { latched 0x00E6#16 0x77#8 .sendingData with pendingResponse := [0x00#8, 0x6D#8] } ∧
    diagOf (exec (.write [0xFC#8, 0xE6#8, 0x77#8]) State.reset) = some .none ∧
    response [0xFC#8, 0x30#8, 0xA2#8] = some [0x00#8, 0x6E#8] := by
  decide +kernel

theorem test_idle_any : wrote [0x00#8, 0xE6#8, 0x99#8] = some (latched 0x00E6#16 0x99#8) := by decide +kernel

theorem test_unk_any :
    wrote [0x42#8, 0xE7#8] (setPhase .sendingData State.reset) = some (latched 0x00E7#16) ∧
    diagOf (exec (.write [0x42#8, 0xE7#8]) State.reset) = some (.unknownState 0x0042#16) := by
  decide +kernel

/-- P5: a poll frame under POSITIONAL. -/
theorem test_positional_poll : wrote [0xF3#8, 0x2D#8, 0x2C#8, 0x06#8] positional = some (latched 0x002D#16 0x2C#8) := by
  decide +kernel

theorem test_read :
    ([0, 1, 7, -1] : List Int).all
      (fun n => resultOf (exec (.read n) (setResponse [0x3A#8, 0x21#8] State.reset)) == some (.bytes [0x3A#8, 0x21#8])) = true := by
  decide +kernel

theorem test_reset : regsOf (exec .reset (setMean 150 (setUser 0x81#8 State.reset))) = some (Registers.reset {}) := by decide +kernel

theorem test_set_mean :
    regsOf (exec (.setMeanHumidity (-10)) State.reset) = some { Registers.reset {} with meanHumidity := -10 } := by
  decide +kernel

theorem test_get_mean :
    resultOf (exec .getMeanHumidity State.reset) = some (.real 80) ∧
    resultOf (exec .getMeanHumidity (setMean 150 State.reset)) = some (.real 150) := by
  decide +kernel

/-! ## The synthesizer (S4, S5, B4) -/

theorem test_clamp_high :
    response [0xF3#8, 0x2D#8, 0x2C#8, 0x06#8] (setMean 150 (drawing 0 (.frac 0 1) 9 (.frac 1 2))) =
      some [0x68#8, 0xAC#8, 0xE3#8, 0xD7#8, 0x02#8, 0x08#8, 0x0E#8] := by
  decide +kernel

theorem test_clamp_low :
    response [0xF3#8, 0x2D#8, 0x2C#8, 0x06#8] (setMean (-10) (drawing 0 (.frac 0 1) 9 (.frac 1 2))) =
      some [0x68#8, 0xAC#8, 0xE3#8, 0x0E#8, 0x52#8, 0x71#8, 0xFE#8] := by
  decide +kernel

/-- The ends of the range: code16 `7ADE` and `567C`. -/
theorem test_temperature_codes :
    tempCode16 {} (sample 25 1 9 ⟨999 / 1000, by norm_num, by norm_num⟩) = 0x7ADE#16 ∧
    tempCode16 {} (sample 25 1 0 ⟨999 / 1000, by norm_num, by norm_num⟩) = 0x567C#16 ∧
    tempCode16 {} (sample 25 1 5 half) = 0x5F92#16 := by
  decide +kernel

/-- The tie: argument 45088.5. -/
theorem test_tie :
    humCode16 {} (10485693 / 131072) = 0xB021#16 ∧ humCode16 { roundTies := .halfEven } (10485693 / 131072) = 0xB020#16 := by
  decide +kernel

theorem test_pack_temperature :
    packTemp 0xFFFF#16 0x00#8 = ⟨0xFF#8, 0xFC#8⟩ ∧ packTemp 0xFFFF#16 0x01#8 = ⟨0xFF#8, 0xF0#8⟩ ∧
    packTemp 0xFFFF#16 0x80#8 = ⟨0xFF#8, 0xF8#8⟩ ∧ packTemp 0xFFFF#16 0x81#8 = ⟨0xFF#8, 0xE0#8⟩ := by
  decide

theorem test_pack_humidity :
    packHum 0xABCD#16 0x00#8 = ⟨0xAB#8, 0xC2#8⟩ ∧ packHum 0xABCD#16 0x01#8 = ⟨0xAB#8, 0x02#8⟩ ∧
    packHum 0xFFFF#16 0x80#8 = ⟨0xFF#8, 0xC2#8⟩ ∧ packHum 0xFFFF#16 0x81#8 = ⟨0xFF#8, 0xE2#8⟩ := by
  decide

theorem test_unpack : unpack 13 ⟨0xAB#8, 0xC8#8⟩ = 0x1579#16 ∧ unpack 10 ⟨0xAB#8, 0xC2#8⟩ = 0x2AF#16 := by decide

/-! ## Checksums (S3, B6) -/

theorem test_crc8 :
    crc8 [] = 0x00#8 ∧ crc8 [0xFF#8] = 0xAC#8 ∧ crc8 [0x00#8, 0x02#8] = 0x62#8 ∧ crc8 [0xBE#8, 0xEF#8] = 0x13#8 ∧
    crc8 [0x31#8, 0x32#8, 0x33#8, 0x34#8, 0x35#8, 0x36#8, 0x37#8, 0x38#8, 0x39#8] = 0xA2#8 := by
  decide +kernel

theorem test_xor_sum :
    xorSum [] = 0x00#8 ∧ xorSum [0xFC#8, 0xE7#8, 0x05#8] = 0x1E#8 ∧ xorSum [0xF3#8, 0x2D#8, 0x2C#8, 0x06#8] = 0xF4#8 := by
  decide

theorem test_frame6 :
    frame6 ⟨0x71#8, 0xC0#8⟩ ⟨0xA7#8, 0x02#8⟩ = [0x71#8, 0xC0#8, 0x88#8, 0xA7#8, 0x02#8, 0x33#8] := by
  decide +kernel

/-! ## Witnesses: every hypothesis of a statement is met -/

theorem witness_StepRunsTheArrivingOperation :
    (∃ (s : State) (b : List Byte) (rest : List Arrival), s.arrivals = .one (.write b) :: rest ∧ deliverable s.params b = true ∧ b = [0xFC#8, 0xE7#8]) ∧
    (∃ (s : State) (n : Int) (rest : List Arrival), s.arrivals = .one (.read n) :: rest) ∧
    (∃ (s : State) (rest : List Arrival), s.arrivals = .one .reset :: rest) ∧
    (∃ (s : State) (v : REAL) (rest : List Arrival), s.arrivals = .one (.setMeanHumidity v) :: rest) ∧
    (∃ (s : State) (rest : List Arrival), s.arrivals = .one .getMeanHumidity :: rest) :=
  ⟨⟨atPorts [.one (.write [0xFC#8, 0xE7#8])], _, _, rfl, rfl, rfl⟩, ⟨atPorts [.one (.read 0)], _, _, rfl⟩,
    ⟨atPorts [.one .reset], _, rfl⟩, ⟨atPorts [.one (.setMeanHumidity 150)], _, _, rfl⟩, ⟨atPorts [.one .getMeanHumidity], _, rfl⟩⟩

/-- A bound of 2 delivers 2 bytes and refuses 3. -/
theorem witness_StepRefusesOnlyWhatIsNoOperation :
    (∃ (s : State) (a b : PortOp) (rest : List Arrival), s.arrivals = .overlapping a b :: rest ∧
      step s = .refused .concurrentInvocation) ∧
    (∃ (s : State) (b : List Byte) (rest : List Arrival) (m : Nat), s.arrivals = .one (.write b) :: rest ∧
      s.params.maxWriteLen = some m ∧ m < b.length ∧ step s = .refused (.undeliverableWrite 3)) ∧
    (∃ s : State, s.arrivals = []) ∧
    deliverable { maxWriteLen := some 2 } [0xFC#8, 0xE7#8] = true :=
  ⟨⟨atPorts [.overlapping .reset .getMeanHumidity], _, _, _, rfl, rfl⟩,
    ⟨atPorts [.one (.write [0xFC#8, 0xE7#8, 0x01#8])] { State.reset with params := { maxWriteLen := some 2 } }, _, _, 2, rfl, rfl,
      by decide, rfl⟩,
    ⟨State.reset, rfl⟩, by decide⟩

theorem witness_DecodeOfEncode :
    (∃ b, wellFormed .coded (.rdOther (some 0x0030#16) (.data 0xA3#8 [0x01#8])) = true ∧
      encode (.rdOther (some 0x0030#16) (.data 0xA3#8 [0x01#8])) = some b) ∧
    (∃ b, wellFormed .coded (.sdOther 0x30A2#16 .none) = true ∧ encode (.sdOther 0x30A2#16 .none) = some b) ∧
    (∃ b, wellFormed .positional (.unkAny 0x00F3#16 0x002D#16 (.data 0xE6#8 [])) = true ∧
      encode (.unkAny 0x00F3#16 0x002D#16 (.data 0xE6#8 [])) = some b) :=
  ⟨⟨_, by decide, rfl⟩, ⟨_, by decide, rfl⟩, ⟨_, by decide, rfl⟩⟩

theorem witness_EveryOperationHasAStep :
    (∃ (s : State) (op : PortOp) (rest : List Arrival), s.arrivals = .one op :: rest ∧
      (∀ b, op = .write b → deliverable s.params b = true) ∧ s.params.maxWriteLen = some 2) ∧
    (∃ (s : State) (a b : PortOp) (rest : List Arrival), s.arrivals = .overlapping a b :: rest) :=
  ⟨⟨atPorts [.one (.write [0xFC#8, 0xE7#8])] { State.reset with params := { maxWriteLen := some 2 } }, _, _, rfl,
      by rintro b ⟨⟩; decide, rfl⟩,
    ⟨atPorts [.overlapping (.read 0) .reset], _, _, _, rfl⟩⟩

theorem witness_ThreeWaysToReset : ∃ s : State, s.params = State.reset.params ∧ s.regs.userRegister = 0x81#8 :=
  ⟨setUser 0x81#8 State.reset, rfl, rfl⟩

theorem witness_ShortWriteChangesNothing : ([] : List Byte).length < 2 ∧ [0xFC#8].length < 2 ∧ ¬ [0xFC#8, 0xE7#8].length < 2 := by
  decide

theorem witness_PlaceholderHandlersDoNothing :
    ∃ (t : Tail) (i j k : Instr), (i = .rdUserread t ∧ (0x00E7#16 : Code) = 0x00E7#16) ∧ (j = .rdOcm1 t ∧ (0x00FA#16 : Code) = 0x00FA#16) ∧
      (k = .rdOcm2 t ∧ (0x00FC#16 : Code) = 0x00FC#16) :=
  ⟨.none, _, _, _, ⟨rfl, rfl⟩, ⟨rfl, rfl⟩, ⟨rfl, rfl⟩⟩

/-- The neighbours of the recognized codes are unrecognized. -/
theorem witness_UnrecognizedCodeIsIgnored :
    recognized.contains 0x30A3#16 = false ∧ recognized.contains 0x0030#16 = false ∧ recognized.contains 0x00E5#16 = false ∧
    recognized.contains 0x0000#16 = false := by
  decide

theorem witness_MeasurePollBuildsTheResponse : ∃ t : Tail, t = .none := ⟨_, rfl⟩

theorem witness_PlaceholderPayloadsAreZero :
    ∃ (t : Tail) (i j : Instr), (i = .sdOcm1 t ∧ (0x00FA#16 : Code) = 0x00FA#16 ∧ 9 = 9) ∧
      (j = .sdOcm2 t ∧ (0x00FC#16 : Code) = 0x00FC#16 ∧ 7 = 7) :=
  ⟨.data 0x01#8 [], _, _, ⟨rfl, rfl, rfl⟩, ⟨rfl, rfl, rfl⟩⟩

theorem witness_SendingDataExit :
    ∃ (i : Instr) (b : List Byte), i.kind = .sending ∧ encode i = some b ∧ i = .sdOther 0x2C06#16 (.data 0x01#8 []) :=
  ⟨_, _, rfl, rfl, rfl⟩

theorem witness_UnrecognizedStateOnlyLatches :
    ∃ sel : Code, sel ≠ 0x0000#16 ∧ sel ≠ 0xF32D#16 ∧ sel ≠ 0x00FC#16 ∧ sel = 0x00F3#16 :=
  ⟨_, by decide, by decide, by decide, rfl⟩

theorem witness_WritesLatchTheirFields :
    ∃ (i : Instr) (code : Option Code) (t : Tail), i.latches = some (code, t) ∧ i.kind ≠ .softReset ∧
      i = .unkAny 0x0042#16 0x00E7#16 (.data 0x01#8 []) :=
  ⟨_, _, _, rfl, by decide, rfl⟩

theorem witness_WritesLatchTheirFields_dispatch :
    parseFrame State.reset.params.frameLayout [0xF3#8, 0x2D#8, 0xE6#8, 0x05#8] = .full 0xF32D#16 0x00E6#16 (.data 0x05#8 []) := by
  decide

theorem witness_StartPhaseIsNotObserved : ∃ i : Instr, i.latches.isSome ∧ i = .rdSoftreset .none := ⟨_, rfl, rfl⟩

/-- Both sides of the branch at 6, the zero draw, both signs of the mean. -/
theorem witness_SampleFollowsTheFormula :
    6 ≤ (6 : Fin 10).val ∧ (5 : Fin 10).val ≤ 5 ∧ nought.val = 0 ∧ ((0 : REAL) < 25 ∧ (0 : REAL) < 1) ∧
    ((-10 : REAL) < 0 ∧ (0 : REAL) < 5 ∧ 6 ≤ (9 : Fin 10).val ∧ 0 < half.val) ∧ half.val = 1 / 2 := by
  refine ⟨by decide, by decide, rfl, ⟨by norm_num, by norm_num⟩, ⟨by norm_num, by norm_num, by decide, ?_⟩, rfl⟩
  norm_num [half]

theorem witness_CodesAreExactOrWithinOne :
    (-1 : Int) < 0 ∧ ((0 : Int) ≤ 0 ∧ (0 : Int) ≤ 65535) ∧ ((0 : Int) ≤ 65535 ∧ (65535 : Int) ≤ 65535) ∧ (65535 : Int) < 65536 ∧
    ({} : Params).real = .exact := by
  decide

theorem witness_RoundTiesAreUnobservable : State.reset.params.real = .exact := rfl

/-- In each mode there is a bit at and a bit below the lowest transmitted one. -/
theorem witness_TemperaturePackingTable :
    ([0x00#8, 0x01#8, 0x80#8, 0x81#8] : List Byte).all
      (fun ur => 16 - temperatureBits (modeOf ur) < 8 && 0 < 16 - temperatureBits (modeOf ur)) = true := by
  decide

theorem witness_ReservedBitsAffectNothing :
    ∃ (v : Byte) (s : State) (i : Instr), v.getLsbD 7 = s.regs.userRegister.getLsbD 7 ∧ v.getLsbD 0 = s.regs.userRegister.getLsbD 0 ∧
      (i = .rdMeasHm .none ∨ i = .rdMeasPoll .none) ∧ v ≠ s.regs.userRegister :=
  ⟨0x7E#8, State.reset, .rdMeasPoll .none, by decide, by decide, .inr rfl, by decide⟩

theorem witness_CrcIsLinear : [0x00#8, 0x01#8].length = [0x00#8, 0x02#8].length := rfl

theorem witness_MasterVerifiesAMeasurement :
    (∃ w, encode (.rdMeasPoll (.data 0xAA#8 [])) = some w) ∧ (∃ w, encode (.sdMeasHm .none) = some w) ∧
    (Instr.sdOther 0x0055#16 .none).kind = .sending ∧ (∃ w, encode (.sdOther 0x0055#16 .none) = some w) :=
  ⟨⟨_, rfl⟩, ⟨_, rfl⟩, rfl, ⟨_, rfl⟩⟩

theorem witness_StaleResponse :
    ∃ i j k : Instr, (∃ t, i = .rdMeasHm t ∨ i = .rdUserwrite t ∨ i = .rdUserread t ∨ i = .rdOcm1 t ∨ i = .rdOcm2 t) ∧
      (∃ code t, j = .idleAny code t) ∧ (∃ sel code t, k = .unkAny sel code t) ∧ (∃ i b, i = Instr.short b) ∧
      (∃ i code t, i = Instr.rdOther code t) ∧ (∃ i n, i = Instr.read n) ∧ (∃ i v, i = Instr.setMeanHumidity v) ∧
      (∃ i, i = Instr.getMeanHumidity) :=
  ⟨.rdMeasHm .none, _, _, ⟨.none, .inl rfl⟩, ⟨0x00E6#16, .none, rfl⟩, ⟨0x0042#16, 0x00E7#16, .none, rfl⟩, ⟨_, none, rfl⟩,
    ⟨_, none, .none, rfl⟩, ⟨_, -1, rfl⟩, ⟨_, 150, rfl⟩, ⟨_, rfl⟩⟩

/-- The latch `77` of a read-setup (P4), a reset of each kind, and operations without a data byte in between. -/
theorem witness_StaleDataLatch :
    (resolved .coded (.write [0xFC#8, 0xE6#8, 0x77#8])).latches = some (some 0x00E6#16, .data 0x77#8 []) ∧
    (resolved .coded (.write [0xFC#8, 0xE6#8, 0x77#8])).kind ≠ .softReset ∧
    (resolved .coded (.write [0xF3#8, 0x2D#8, 0x30#8, 0xA2#8, 0x55#8])).kind = .softReset ∧
    ([.read 0, .write [0xFC#8], .write [0xF3#8, 0x2D#8, 0xE6#8], .rdMeasHm .none, .setMeanHumidity 150] : List Instr).all
      (fun j => (resolved .coded j).keepsData) = true := by
  decide

/-- What does not keep the latch. -/
theorem test_keepsData_refuses :
    ([.reset, .rdSoftreset .none, .rdSoftreset (.data 0x01#8 []), .idleAny 0x00E6#16 (.data 0x99#8 [])] : List Instr).all
      (fun j => !j.keepsData) = true := by
  decide

/-- One frame for each case of the event, at the edge of the case. -/
theorem witness_DiagnosticEventOfAWrite :
    State.reset.params.diag = true ∧ parseFrame .coded [0xFC#8] = .short (some 0xFC#8) ∧
    parseFrame .coded [0xF3#8, 0x2D#8] = .noRegister 0xF32D#16 ∧
    parseFrame .coded [0x01#8, 0xE7#8] = .full 0x0001#16 0x00E7#16 .none ∧
    parseFrame .coded [0xFC#8, 0xE5#8] = .full 0x00FC#16 0x00E5#16 .none ∧
    parseFrame .coded [0x00#8, 0x99#8] = .full 0x0000#16 0x0099#16 .none := by
  decide

theorem witness_AnomaliesAreNotSticky : ∃ (s : State) (e : DiagEvent), s.params.diag = true ∧ e ≠ .none :=
  ⟨State.reset, .shortWrite 1, rfl, by decide⟩

theorem witness_BusMasterCannotSetTheMean :
    (Instr.write [0xF3#8, 0x2D#8, 0x30#8, 0xA2#8]).port = .bus ∧
    (resolved .coded (.write [0xF3#8, 0x2D#8, 0x30#8, 0xA2#8])).kind = .softReset ∧
    (Instr.read 0).port = .bus ∧ (resolved .coded (.read 0)).kind ≠ .softReset := by
  decide

theorem witness_PositionalNeverMeasures :
    ∃ s u : State, s.params.frameLayout = .positional ∧ s.regs.userRegister = 0x3A#8 ∧
      s.regs.lastTemperatureCode = ⟨0x00#8, 0x00#8⟩ ∧ s.regs.lastHumidityCode = ⟨0x00#8, 0x00#8⟩ ∧ step s = .next u ∧
      s.arrivals = [.one (.write [0xF3#8, 0x2D#8, 0x2C#8, 0x06#8])] :=
  ⟨atPorts [.one (.write [0xF3#8, 0x2D#8, 0x2C#8, 0x06#8])] positional, _, rfl, rfl, rfl, rfl, rfl, rfl⟩

/-- A state with the invariant that has measured, and a step from it. -/
def measured : State :=
  atPorts [.one (.write [0xFC#8, 0x2C#8])]
    (setResponse [0x68#8, 0xAC#8, 0xE3#8, 0xB0#8, 0x22#8, 0x75#8, 0x34#8]
      (setTemperature ⟨0x68#8, 0xAC#8⟩ (setHumidity ⟨0xB0#8, 0x22#8⟩ (setPhase .sendingData State.reset))))

theorem witness_StepKeepsTheInvariant : ∃ s u : State, Inv s ∧ step s = .next u :=
  ⟨measured, _,
    { params := by decide, phase := .inr rfl, response := by decide, capacity := by decide, temperature := by decide,
      humidity := by decide, together := by decide }, rfl⟩

theorem witness_FetchWordRunsNext :
    deliverable State.reset.params (tableFrame 32 0xF32D30A2) = true ∧
    regsOf (step (State.reset.withFetchWord 16 0xFCE7)) =
      some { latched 0x00E7#16 0x00#8 .sendingData with pendingResponse := [0x3A#8, 0x21#8] } := by
  decide +kernel

end Sys2Proof.Tests
end

section
/-! PROOFS. The operations at the ports (spec/40_bus_operations.md). -/

namespace Sys2Proof.Machine

/-! ## The start of an operation and its result (R5, R201) -/

theorem beginOp_kept (s : State) : PortsKept s (beginOp s) := ⟨rfl, rfl, rfl⟩

theorem beginOp_diagAfter (s : State) : (beginOp s).diag = diagAfter s .none := rfl

/-- Returning a result leaves the ports kept since an earlier state. -/
theorem PortsKept.returning {s u : State} (h : PortsKept s u) (r : OpResult) : PortsKept s (returning r u) :=
  ⟨h.params, h.arrivals, h.rng⟩

/-! ## The stored humidity mean (R103, R104) -/

theorem exec_setMeanHumidity (v : REAL) (s : State) : exec (.setMeanHumidity v) s = .next (setMean v (beginOp s)) := rfl

theorem exec_getMeanHumidity (s : State) :
    exec .getMeanHumidity s = .next (returning (.real s.regs.meanHumidity) (beginOp s)) := rfl

/-- The form for a state known only by its mean, as in the examples of R104. -/
theorem getMeanHumidity_returns {v : REAL} {s : State} (h : s.regs.meanHumidity = v) :
    ∃ u, exec .getMeanHumidity s = .next u ∧ u.result = .real v :=
  ⟨_, exec_getMeanHumidity s, by rw [returning_result, h]⟩

/-- R104: "State written: none. Anomalies: none." -/
theorem getMeanHumidity_frame (s : State) : ∃ u, exec .getMeanHumidity s = .next u ∧
    u.result = .real s.regs.meanHumidity ∧ u.regs = s.regs ∧ PortsKept s u ∧ u.diag = diagAfter s .none :=
  ⟨_, exec_getMeanHumidity s, returning_result _ _, by rw [returning_regs, beginOp_regs],
    (beginOp_kept s).returning _, by rw [returning_diag, beginOp_diagAfter]⟩

/-- Settles O14: the frame from every state; the two examples are the stored mean at reset (R35) and after `SETH -10` (R103). -/
theorem getMeanReturnsTheStoredValue : Obligations.GetMeanReturnsTheStoredValue := by
  refine ⟨getMeanHumidity_frame, getMeanHumidity_returns rfl, ?_⟩
  have hmean : (setMean (-10) (beginOp State.reset)).regs.meanHumidity = -10 := by rw [setMean_regs]
  obtain ⟨v, hget, hresult⟩ := getMeanHumidity_returns hmean
  exact ⟨_, v, exec_setMeanHumidity (-10) State.reset, hget, hresult⟩

end Sys2Proof.Machine
end

section
/-! PROOFS. The command map (R81) and the layouts behind it (R72 to R77): which class of command a frame decodes to, and that a raw
`WRITE` is its command (R101). -/

namespace Sys2Proof

/-! ## The state-selects (R78, R81) -/

theorem command_receivingData (code : Code) (t : Tail) : command (.full selReceivingData code t) = rdCommand code t := rfl

theorem command_idle (code : Code) (t : Tail) : command (.full selIdle code t) = .idleAny code t := rfl

theorem command_unrecognized {sel : Code} (hrd : sel ≠ selReceivingData) (hsd : sel ≠ selSendingData) (hidle : sel ≠ selIdle)
    (code : Code) (t : Tail) : command (.full sel code t) = .unkAny sel code t := by
  simp only [command, if_neg hrd, if_neg hsd, if_neg hidle]

theorem rdCommand_unrecognized {code : Code} (h : recognized.contains code = false) (t : Tail) :
    rdCommand code t = .rdOther (some code) t := by
  simp only [recognized, List.contains_eq_mem, List.mem_cons, List.not_mem_nil, or_false, not_or, decide_eq_false_iff_not] at h
  obtain ⟨hreset, hwrite, hread, hhm, hpoll, hocm1, hocm2⟩ := h
  simp only [rdCommand, if_neg, hreset, hwrite, hread, hhm, hpoll, hocm1, hocm2, not_false_eq_true]

/-! ## The class of a command -/

theorem rdCommand_kind (code : Code) (t : Tail) :
    (rdCommand code t).kind = .softReset ∨ (rdCommand code t).kind = .measuring ∨ (rdCommand code t).kind = .receiving := by
  unfold rdCommand
  split_ifs <;> simp [Instr.kind]

theorem sdCommand_kind (code : Code) (t : Tail) : (sdCommand code t).kind = .sending := by
  unfold sdCommand
  split_ifs <;> rfl

/-- Outside the ReceivingData phase no handler runs (R56, R120). -/
theorem command_kind_of_ne_receivingData {sel : Code} (h : sel ≠ selReceivingData) (code : Code) (t : Tail) :
    (command (.full sel code t)).kind = .sending ∨ (command (.full sel code t)).kind = .latching := by
  simp only [command, if_neg h]
  split_ifs
  · exact .inl (sdCommand_kind code t)
  · exact .inr rfl
  · exact .inr rfl

/-- A frame decodes to a write command, never to a port operation (R81). -/
theorem command_kind_ne_port (f : Fields) : (command f).kind ≠ .port := by
  cases f with
  | short b => simp [command, Instr.kind]
  | noRegister sel => simp [command, Instr.kind]
  | full sel code t =>
    by_cases h : sel = selReceivingData
    · subst h
      rw [command_receivingData]
      rcases rdCommand_kind code t with hk | hk | hk <;> simp [hk]
    · rcases command_kind_of_ne_receivingData h code t with hk | hk <;> simp [hk]

theorem decode_kind_ne_port (l : FrameLayout) (b : List Byte) : (decode l b).kind ≠ .port :=
  command_kind_ne_port _

theorem zext16_ne_selReceivingData (b : Byte) : zext16 b ≠ selReceivingData := by
  intro h
  have hn : b.toNat % 65536 = 0xF32D := by simpa using congrArg BitVec.toNat h
  have := b.isLt
  omega

/-- R77: under POSITIONAL a state-select is one byte, so no frame selects the ReceivingData phase. -/
theorem decode_positional_kind (b : List Byte) :
    (decode .positional b).kind = .short ∨ (decode .positional b).kind = .sending ∨ (decode .positional b).kind = .latching := by
  match b with
  | [] => exact .inl rfl
  | [_] => exact .inl rfl
  | b0 :: b1 :: rest =>
    exact .inr (command_kind_of_ne_receivingData (zext16_ne_selReceivingData b0) (zext16 b1) (Tail.ofBytes rest))

/-! ## The fields a command latches (R121) -/

theorem rdCommand_latches (code : Code) (t : Tail) : (rdCommand code t).latches = some (some code, t) := by
  unfold rdCommand
  split_ifs <;> simp [Instr.latches, *]

theorem sdCommand_latches (code : Code) (t : Tail) : (sdCommand code t).latches = some (some code, t) := by
  unfold sdCommand
  split_ifs <;> simp [Instr.latches, *]

theorem command_latches (sel code : Code) (t : Tail) : (command (.full sel code t)).latches = some (some code, t) := by
  simp only [command]
  split_ifs
  · exact rdCommand_latches code t
  · exact sdCommand_latches code t
  · rfl
  · rfl

theorem eq_rdSoftreset_of_kind {i : Instr} {code : Option Code} {t : Tail} (hk : i.kind = .softReset)
    (hl : i.latches = some (code, t)) : i = .rdSoftreset t := by
  cases i with
  | rdSoftreset t' => cases hl; rfl
  | _ => cases hk

/-! ## The frames of the commands (R72, R80) -/

theorem frame_selSendingData (code : Code) (t : Tail) :
    frame selSendingData code t = [0xFC#8] ++ codeBytes code ++ t.bytes := rfl

theorem frame_rdMeasPoll (t : Tail) :
    frame selReceivingData codeTempHumPoll t = [0xF3#8, 0x2D#8, 0x2C#8, 0x06#8] ++ t.bytes := rfl

end Sys2Proof

namespace Sys2Proof.Machine

/-! ## A raw write is its command (R81, R101) -/

theorem dispatchReceiving_eq (code : Code) (t : Tail) (s : State) : dispatchReceiving code t s = exec (rdCommand code t) s := by
  simp only [rdCommand, apply_ite (exec · s)]
  rfl

theorem dispatchSending_eq (code : Code) (t : Tail) (s : State) : dispatchSending code t s = exec (sdCommand code t) s := by
  simp only [sdCommand, apply_ite (exec · s)]
  rfl

theorem dispatch_eq (sel code : Code) (t : Tail) (s : State) : dispatch sel code t s = exec (command (.full sel code t)) s := by
  by_cases hrd : sel = selReceivingData
  · subst hrd
    exact dispatchReceiving_eq code t s
  by_cases hsd : sel = selSendingData
  · subst hsd
    exact dispatchSending_eq code t s
  by_cases hidle : sel = selIdle
  · subst hidle
    rfl
  · have hphase : phaseOf sel = .idle := by rw [phaseOf, if_neg hrd, if_neg hsd]
    rw [command_unrecognized hrd hsd hidle, dispatch, hphase]
    exact if_neg hidle

theorem exec_write (b : List Byte) (s : State) : exec (.write b) s = exec (decode s.params.frameLayout b) s := by
  change execWrite b s = _
  unfold execWrite decode
  cases parseFrame s.params.frameLayout b with
  | short b => rfl
  | noRegister sel => rfl
  | full sel code t => exact dispatch_eq sel code t s

theorem exec_write_of_decode {b : List Byte} {i : Instr} {s : State} (h : decode s.params.frameLayout b = i) :
    exec (.write b) s = exec i s := by
  rw [exec_write, h]

theorem exec_resolved (i : Instr) (s : State) : exec i s = exec (resolved s.params.frameLayout i) s := by
  cases i with
  | write b => exact exec_write b s
  | _ => rfl

theorem resolved_ne_write (l : FrameLayout) (i : Instr) (b : List Byte) : resolved l i ≠ .write b := by
  cases i with
  | write b' =>
    intro h
    exact decode_kind_ne_port l b' (congrArg Instr.kind h)
  | _ => simp [resolved]

theorem resolved_eq_reset_iff (l : FrameLayout) (i : Instr) : resolved l i = .reset ↔ i = .reset := by
  cases i with
  | write b =>
    have h : decode l b ≠ .reset := fun h => decode_kind_ne_port l b (congrArg Instr.kind h)
    simp [resolved, h]
  | _ => simp [resolved]

end Sys2Proof.Machine
end

section
/-! PROOFS. What a write command does beside its handler: the latches (R121), the phase (R130, R136), the response (R184), its event
(R201). -/

namespace Sys2Proof.Machine

/-! ## Updates that keep the ports -/

theorem PortsKept.trans {s u v : State} (h : PortsKept s u) (h' : PortsKept u v) : PortsKept s v :=
  ⟨h'.params.trans h.params, h'.arrivals.trans h.arrivals, h'.rng.trans h.rng⟩

theorem setPhase_kept (p : Phase) (s : State) : PortsKept s (setPhase p s) := ⟨rfl, rfl, rfl⟩

theorem respond_kept (w p : List Byte) (s : State) : PortsKept s (respond w p s) := ⟨rfl, rfl, rfl⟩

@[simp] theorem respond_regs (w p : List Byte) (s : State) :
    (respond w p s).regs = { s.regs with pendingResponse := buildResponse w p } := rfl

/-- The operation from `s` that ends in `u` draws nothing, returns nothing, and its event is `e`. -/
structure EndsQuietly (s : State) (e : DiagEvent) (u : State) : Prop where
  kept   : PortsKept s u
  result : u.result = .none
  diag   : u.diag = diagAfter s e

theorem beginWrite_endsQuietly (ph : Phase) (code : Option Code) (t : Tail) (s : State) :
    EndsQuietly s .none (beginWrite ph code t s) :=
  ⟨beginWrite_kept ph code t s, beginWrite_result ph code t s, beginWrite_diag ph code t s⟩

theorem EndsQuietly.raiseAnomaly {s u : State} (h : EndsQuietly s .none u) (e : DiagEvent) :
    EndsQuietly s e (raiseAnomaly e u) :=
  ⟨h.kept.trans (raiseAnomaly_kept e u), h.result, raiseAnomaly_diagAfter h.kept.params h.diag⟩

theorem EndsQuietly.setPhase {s u : State} {e : DiagEvent} (h : EndsQuietly s e u) (p : Phase) :
    EndsQuietly s e (setPhase p u) :=
  ⟨h.kept.trans (setPhase_kept p u), h.result, h.diag⟩

theorem EndsQuietly.respond {s u : State} {e : DiagEvent} (h : EndsQuietly s e u) (w p : List Byte) :
    EndsQuietly s e (respond w p u) :=
  ⟨h.kept.trans (respond_kept w p u), h.result, h.diag⟩

/-! ## Writes whose handler does nothing to the registers: they latch and end Idle -/

theorem exitIdle_frame {ph : Phase} {code : Option Code} {t : Tail} {s v : State} {e : DiagEvent}
    (hregs : v.regs = (beginWrite ph code t s).regs) (hquiet : EndsQuietly s e v) :
    ∃ u, exitIdle v = .next u ∧
      u.regs =
        { s.regs with
          state := .idle
          registerAddress := code.getD s.regs.registerAddress
          registerData := t.data?.getD s.regs.registerData } ∧
      PortsKept s u ∧ u.result = .none ∧ u.diag = diagAfter s e := by
  obtain ⟨hkept, hresult, hdiag⟩ := hquiet.setPhase .idle
  exact ⟨_, rfl, by rw [setPhase_regs, hregs, beginWrite_regs], hkept, hresult, hdiag⟩

theorem rdOther_frame (code : Option Code) (t : Tail) (s : State) : ∃ u, exec (.rdOther code t) s = .next u ∧
    u.regs =
      { s.regs with
        state := .idle
        registerAddress := code.getD s.regs.registerAddress
        registerData := t.data?.getD s.regs.registerData } ∧
    PortsKept s u ∧ u.result = .none ∧ u.diag = diagAfter s (.unknownCode code) :=
  exitIdle_frame (raiseAnomaly_regs _ _) ((beginWrite_endsQuietly .receivingData code t s).raiseAnomaly _)

theorem idleAny_frame (code : Code) (t : Tail) (s : State) : ∃ u, exec (.idleAny code t) s = .next u ∧
    u.regs =
      { s.regs with
        state := .idle
        registerAddress := code
        registerData := t.data?.getD s.regs.registerData } ∧
    PortsKept s u ∧ u.result = .none ∧ u.diag = diagAfter s .none :=
  exitIdle_frame rfl (beginWrite_endsQuietly .idle (some code) t s)

theorem unkAny_frame (sel code : Code) (t : Tail) (s : State) : ∃ u, exec (.unkAny sel code t) s = .next u ∧
    u.regs =
      { s.regs with
        state := .idle
        registerAddress := code
        registerData := t.data?.getD s.regs.registerData } ∧
    PortsKept s u ∧ u.result = .none ∧ u.diag = diagAfter s (.unknownState sel) :=
  exitIdle_frame (raiseAnomaly_regs _ _) ((beginWrite_endsQuietly .idle (some code) t s).raiseAnomaly _)

/-! ## Writes that answer at once: they latch, replace the response, and end in SendingData (R136) -/

theorem respond_beginWrite_regs (code : Code) (t : Tail) (w p : List Byte) (s : State) :
    (respond w p (beginWrite .sendingData (some code) t s)).regs =
      { s.regs with
        state := .sendingData
        registerAddress := code
        registerData := t.data?.getD s.regs.registerData
        pendingResponse := buildResponse w p } := by
  rw [respond_regs, beginWrite_regs]
  rfl

/-- Every SendingData command latches, may raise an anomaly, and answers over its own frame. -/
theorem exec_sending {i : Instr} (h : i.kind = .sending) (s : State) :
    ∃ code t p v, i.latches = some (some code, t) ∧ encode i = some (frame selSendingData code t) ∧
      exec i s = .next (respond (frame selSendingData code t) p v) ∧
      v.regs = (beginWrite .sendingData (some code) t s).regs ∧ PortsKept s v ∧ v.result = .none := by
  cases i with
  | sdUserread t | sdMeasHm t | sdOcm1 t | sdOcm2 t =>
    exact ⟨_, t, _, _, rfl, rfl, rfl, rfl, beginWrite_kept _ _ t s, beginWrite_result _ _ t s⟩
  | sdOther code t =>
    exact ⟨code, t, _, _, rfl, rfl, rfl, raiseIfUnrecognized_regs _ _,
      (beginWrite_kept _ _ t s).trans (raiseIfUnrecognized_kept _ _),
      (raiseIfUnrecognized_result _ _).trans (beginWrite_result _ _ t s)⟩
  | _ => cases h

/-! ## Reading the response (R102) -/

theorem memRead_all (s : State) : memRead 0 s.regs.pendingResponse.length s = s.regs.pendingResponse := by
  simp [memRead]

theorem exec_read (count : Int) (s : State) :
    exec (.read count) s = .next (returning (.bytes s.regs.pendingResponse) (beginOp s)) := by
  conv_rhs => rw [← memRead_all s]
  rfl

/-! ## The latches (R121) -/

/-- From `s` to `u` the two latches have taken the fields `code` and `t` of a frame; an absent field leaves its latch. -/
structure Latched (code : Option Code) (t : Tail) (s u : State) : Prop where
  address : u.regs.registerAddress = code.getD s.regs.registerAddress
  data    : u.regs.registerData = t.data?.getD s.regs.registerData

theorem beginWrite_latched (ph : Phase) (code : Option Code) (t : Tail) (s : State) :
    Latched code t s (beginWrite ph code t s) := by
  constructor <;> rw [beginWrite_regs]

theorem Latched.congr {code : Option Code} {t : Tail} {s u v : State} (h : Latched code t s u)
    (haddress : v.regs.registerAddress = u.regs.registerAddress) (hdata : v.regs.registerData = u.regs.registerData) :
    Latched code t s v :=
  ⟨haddress.trans h.address, hdata.trans h.data⟩

theorem Latched.performMeasure {code : Option Code} {t : Tail} {s u : State} (h : Latched code t s u) :
    Latched code t s (performMeasure u) :=
  h.congr (by rw [performMeasure_regs]) (by rw [performMeasure_regs])

/-- No handler but the soft reset's undoes the latching of its write. -/
theorem exec_latched {i : Instr} {code : Option Code} {t : Tail} (hl : i.latches = some (code, t)) (hk : i.kind ≠ .softReset)
    (s : State) : ∃ u, exec i s = .next u ∧ Latched code t s u := by
  have hbegin := fun ph => beginWrite_latched ph code t s
  by_cases hs : i.kind = .sending
  · obtain ⟨code', t', p, v, hl', -, hexec, hregs, -, -⟩ := exec_sending hs s
    cases hl.symm.trans hl'
    refine ⟨_, hexec, (hbegin .sendingData).congr ?_ ?_⟩ <;> rw [respond_regs, hregs]
  cases i with
  | rdSoftreset t' => exact absurd rfl hk
  | rdUserwrite t' | rdUserread t' | rdOcm1 t' | rdOcm2 t' | rdOther code' t' =>
    cases hl
    exact ⟨_, rfl, (hbegin .receivingData).congr rfl rfl⟩
  | rdMeasHm t' | rdMeasPoll t' =>
    cases hl
    exact ⟨_, rfl, (hbegin .receivingData).performMeasure.congr rfl rfl⟩
  | sdUserread t' | sdMeasHm t' | sdOcm1 t' | sdOcm2 t' | sdOther code' t' => exact absurd rfl hs
  | idleAny code' t' | unkAny sel code' t' =>
    cases hl
    exact ⟨_, rfl, (hbegin .idle).congr rfl rfl⟩
  | _ => cases hl

/-! ## The next phase (R130, R136, R139) -/

/-- The table of R139: the next `state` by the operation's class, from the current value `p`. -/
def nextPhase (i : Instr) (p : Phase) : Phase :=
  match i.kind with
  | .short => p
  | .softReset | .measuring | .receiving | .latching => .idle
  | .sending => .sendingData
  | .port => if i = .reset then .idle else p

theorem exec_nextPhase (i : Instr) (s : State) (hwrite : ∀ b, i ≠ .write b) :
    ∃ u, exec i s = .next u ∧ u.regs.state = nextPhase i s.regs.state := by
  by_cases hs : i.kind = .sending
  · obtain ⟨code', t', p, v, -, -, hexec, hregs, -, -⟩ := exec_sending hs s
    exact ⟨_, hexec, by rw [respond_regs, hregs, beginWrite_regs, nextPhase, hs]⟩
  cases i with
  | short b | reset | read count | setMeanHumidity v | getMeanHumidity => exact ⟨_, rfl, rfl⟩
  | rdSoftreset t | rdUserwrite t | rdUserread t | rdMeasPoll t | rdMeasHm t | rdOcm1 t | rdOcm2 t | rdOther code t
  | idleAny code t | unkAny sel code t => exact ⟨_, rfl, rfl⟩
  | sdUserread t | sdMeasHm t | sdOcm1 t | sdOcm2 t | sdOther code t => exact absurd rfl hs
  | write b => exact absurd rfl (hwrite b)

end Sys2Proof.Machine
end

section
/-! PROOFS. No measurement saturates (R156, R163, R205), so that a measuring command has no anomaly. -/

namespace Sys2Proof.Machine

/-! ## Rounding and the error of an inexact REAL (R156, R164) -/

theorem le_roundReal (ties : RoundTies) {x : REAL} {m : Int} (h : (m : REAL) - 1 / 2 < x) : m ≤ roundReal ties x := by
  have hfloor : m ≤ (x + 1 / 2).floor := Rat.le_floor_iff.mpr (by linarith)
  cases ties with
  | halfUp => exact hfloor
  | halfEven =>
    simp only [roundReal]
    split_ifs with htie heven
    · have : (m : REAL) < x.floor + 1 := by linarith
      have : m < x.floor + 1 := by exact_mod_cast this
      omega
    · have : (m : REAL) < x.floor + 1 := by linarith
      exact_mod_cast this.le
    · exact hfloor

theorem roundReal_le (ties : RoundTies) {x : REAL} {n : Int} (h : x < (n : REAL) + 1 / 2) : roundReal ties x ≤ n := by
  have hfloor : (x + 1 / 2).floor ≤ n := Int.lt_add_one_iff.mp (Rat.floor_lt_iff.mpr (by push_cast; linarith))
  cases ties with
  | halfUp => exact hfloor
  | halfEven =>
    simp only [roundReal]
    split_ifs with htie heven
    · have : (x.floor : REAL) < n := by linarith
      exact_mod_cast this.le
    · have : (x.floor : REAL) < n := by linarith
      exact_mod_cast this
    · exact hfloor

theorem codeError_bounds (kind : RealKind) (e : Fin 3) : -1 ≤ codeError kind e ∧ codeError kind e ≤ 1 := by
  cases kind with
  | exact => simp [codeError]
  | withinOne => simp only [codeError]; omega

/-! ## The ranges of the two codes (R152 to R155, R163) -/

theorem temperatureOf_bounds (k : Fin 10) (u : UnitReal) : 12.5 < temperatureOf k u ∧ temperatureOf k u < 37.5 := by
  obtain ⟨u, hnonneg, hlt⟩ := u
  unfold temperatureOf sample temperatureMean temperatureSigma
  split_ifs
  · constructor <;> linarith
  · constructor <;> linarith

theorem roundReal_temperature_bounds (ties : RoundTies) (k : Fin 10) (u : UnitReal) :
    22135 ≤ roundReal ties (temperatureScaled (temperatureOf k u)) ∧
      roundReal ties (temperatureScaled (temperatureOf k u)) ≤ 31459 := by
  obtain ⟨hlo, hhi⟩ := temperatureOf_bounds k u
  constructor
  · apply le_roundReal
    unfold temperatureScaled
    norm_num at hlo ⊢
    linarith
  · apply roundReal_le
    unfold temperatureScaled
    norm_num at hhi ⊢
    linarith

theorem humidityOf_bounds (mean : REAL) (k : Fin 10) (u : UnitReal) : 1 ≤ humidityOf mean k u ∧ humidityOf mean k u ≤ 99 := by
  unfold humidityOf clamp
  split_ifs with hlo hhi
  · norm_num
  · norm_num
  · exact ⟨not_lt.mp hlo, not_lt.mp hhi⟩

theorem roundReal_humidity_bounds (ties : RoundTies) (mean : REAL) (k : Fin 10) (u : UnitReal) :
    3670 ≤ roundReal ties (humidityScaled (humidityOf mean k u)) ∧
      roundReal ties (humidityScaled (humidityOf mean k u)) ≤ 55050 := by
  obtain ⟨hlo, hhi⟩ := humidityOf_bounds mean k u
  constructor
  · apply le_roundReal
    unfold humidityScaled
    norm_num
    linarith
  · apply roundReal_le
    unfold humidityScaled
    norm_num
    linarith

theorem sat16_eq_self {n : Int} (hlo : 0 ≤ n) (hhi : n ≤ 65535) : sat16 n = n := by
  rw [sat16, if_neg (by omega), if_neg (by omega)]

theorem sat16_temperature (p : Params) (k : Fin 10) (u : UnitReal) :
    sat16 (temperatureRounded p (temperatureOf k u)) = temperatureRounded p (temperatureOf k u) := by
  obtain ⟨hlo, hhi⟩ := roundReal_temperature_bounds p.roundTies k u
  obtain ⟨helo, hehi⟩ := codeError_bounds p.real (Config.tempCodeError (temperatureOf k u))
  unfold temperatureRounded
  exact sat16_eq_self (by omega) (by omega)

theorem sat16_humidity (p : Params) (mean : REAL) (k : Fin 10) (u : UnitReal) :
    sat16 (humidityRounded p (humidityOf mean k u)) = humidityRounded p (humidityOf mean k u) := by
  obtain ⟨hlo, hhi⟩ := roundReal_humidity_bounds p.roundTies mean k u
  obtain ⟨helo, hehi⟩ := codeError_bounds p.real (Config.humCodeError (humidityOf mean k u))
  unfold humidityRounded
  exact sat16_eq_self (by omega) (by omega)

/-! ## A measurement inside a write (R125, R126, R150) -/

theorem measureTemperature_diag (s : State) : (measureTemperature s).diag = s.diag := by
  simp only [measureTemperature, raiseIfSaturated, if_pos (sat16_temperature _ _ _)]
  rfl

theorem measureHumidity_diag (s : State) : (measureHumidity s).diag = s.diag := by
  simp only [measureHumidity, raiseIfSaturated, if_pos (sat16_humidity _ _ _ _)]
  rfl

theorem performMeasure_diag (s : State) : (performMeasure s).diag = s.diag :=
  (measureHumidity_diag _).trans (measureTemperature_diag s)

/-- Latching changes nothing a measurement reads. -/
theorem performMeasure_beginWrite_regs (ph : Phase) (code : Option Code) (t : Tail) (s : State) :
    (performMeasure (beginWrite ph code t s)).regs =
      { s.regs with
        state := ph
        registerAddress := code.getD s.regs.registerAddress
        registerData := t.data?.getD s.regs.registerData
        lastTemperatureCode := measuredTemperature s
        lastHumidityCode := measuredHumidity s } := by
  have hkept := beginWrite_kept ph code t s
  obtain ⟨htemp, hhum⟩ := measured_congr hkept.params hkept.rng (by rw [beginWrite_regs]) (by rw [beginWrite_regs])
  rw [performMeasure_regs, htemp, hhum, beginWrite_regs]

theorem PortsKept.fourDrawn {s u v : State} (h : PortsKept s u) (h' : FourDrawn u v) : FourDrawn s v :=
  ⟨h'.params.trans h.params, h'.arrivals.trans h.arrivals, by rw [h'.rng, h.rng]⟩

theorem performMeasure_beginWrite_drawn (ph : Phase) (code : Option Code) (t : Tail) (s : State) :
    FourDrawn s (performMeasure (beginWrite ph code t s)) :=
  (beginWrite_kept ph code t s).fourDrawn (performMeasure_drawn _)

end Sys2Proof.Machine
end

section
/-! PROOFS. The command decoder's obligations (spec/41_command_decoder.md): the ReceivingData commands (R124 to R129). -/

namespace Sys2Proof.Machine

/-! ## Commands without a handler (R124, R127 to R129) -/

/-- Settles O18: each of the three is the latching of its own code and the exit to Idle. -/
theorem placeholderHandlersDoNothing : Obligations.PlaceholderHandlersDoNothing := by
  refine ⟨fun _ => rfl, by decide, fun _ => rfl, by decide, fun _ => rfl, by decide, ?_⟩
  rintro t s i code (⟨rfl, rfl⟩ | ⟨rfl, rfl⟩ | ⟨rfl, rfl⟩)
  · exact exitIdle_frame rfl (beginWrite_endsQuietly .receivingData (some codeUserRead) t s)
  · exact exitIdle_frame rfl (beginWrite_endsQuietly .receivingData (some codeOnChipMemory1) t s)
  · exact exitIdle_frame rfl (beginWrite_endsQuietly .receivingData (some codeOnChipMemory2) t s)

/-- Settles O19: the map to RD.OTHER is the last row of the ReceivingData table, its frame is `rdOther_frame`, and the example is that
frame at reset. -/
theorem unrecognizedCodeIsIgnored : Obligations.UnrecognizedCodeIsIgnored := by
  refine ⟨fun code t h => rdCommand_unrecognized h t, rfl, rdOther_frame, ?_⟩
  obtain ⟨u, hexec, hregs, -⟩ := rdOther_frame (some 0x0030#16) (.data 0xA3#8 []) State.reset
  exact ⟨u, (exec_write_of_decode (by decide)).trans hexec, hregs⟩

/-! ## The poll (R126) -/

theorem rdMeasPoll_frame (t : Tail) (s : State) : ∃ u, exec (.rdMeasPoll t) s = .next u ∧
    u.regs =
      { s.regs with
        state := .idle
        registerAddress := 0x2C06#16
        registerData := t.data?.getD s.regs.registerData
        lastTemperatureCode := measuredTemperature s
        lastHumidityCode := measuredHumidity s
        pendingResponse :=
          buildResponse ([0xF3#8, 0x2D#8, 0x2C#8, 0x06#8] ++ t.bytes) (frame6 (measuredTemperature s) (measuredHumidity s)) } ∧
    FourDrawn s u ∧ u.result = .none ∧ u.diag = diagAfter s .none := by
  obtain ⟨hparams, harrivals, hrng⟩ := performMeasure_beginWrite_drawn .receivingData (some codeTempHumPoll) t s
  refine ⟨_, rfl, ?_, ⟨hparams, harrivals, hrng⟩, ?_, ?_⟩
  · simp only [setPhase_regs, respond_regs, performMeasure_beginWrite_regs, frame_rdMeasPoll, Option.getD_some]
  · exact (performMeasure_result _).trans (beginWrite_result ..)
  · exact (performMeasure_diag _).trans (beginWrite_diag ..)

theorem buildResponse_frame6_take (w : List Byte) (temp hum : Packed) :
    (buildResponse w (frame6 temp hum)).take 6 = frame6 temp hum := rfl

theorem buildResponse_getLast? (w p : List Byte) : (buildResponse w p).getLast? = some (xorSum w ^^^ xorSum p) := by
  rw [buildResponse, List.getLast?_concat, xorSum_append]

/-- Over the same payload, the last bytes of two responses differ as the XORs of their frames do. -/
theorem buildResponse_getLast?_ne {w w' : List Byte} (h : xorSum w ≠ xorSum w') (p : List Byte) :
    (buildResponse w p).getLast? ≠ (buildResponse w' p).getLast? := by
  rw [buildResponse_getLast?, buildResponse_getLast?]
  exact fun he => h (BitVec.xor_left_inj _ |>.mp (Option.some.inj he))

theorem sdMeasHm_response (t : Tail) (s : State) : ∃ u, exec (.sdMeasHm t) s = .next u ∧
    u.regs.pendingResponse =
      buildResponse ([0xFC#8, 0x2C#8] ++ t.bytes) (frame6 s.regs.lastTemperatureCode s.regs.lastHumidityCode) :=
  ⟨_, rfl, by rw [respond_regs, beginWrite_regs]; rfl⟩

/-- `DRAW 0 0 0 0` at reset: 25.0 degrees and 80 percent, in the mode `00`. -/
theorem measured_of_zero_draws :
    let s := load [.draw [.int10 0, .frac 0 1, .int10 0, .frac 0 1]] State.reset
    measuredTemperature s = ⟨0x68#8, 0xAC#8⟩ ∧ measuredHumidity s = ⟨0xB0#8, 0x22#8⟩ := by
  decide +kernel

/-- Settles O21: the whole frame of the poll is `rdMeasPoll_frame`; a read-setup after it frames the same codes, and the XOR of the frame
`FC 2C` differs from that of the poll's. Under POSITIONAL no frame decodes to a measuring command. -/
theorem measurePollBuildsTheResponse : Obligations.MeasurePollBuildsTheResponse := by
  refine ⟨fun _ => rfl, by decide, ?_, ?_, ?_⟩
  · intro b t h
    have hkind := decode_positional_kind b
    simp [h, Instr.kind] at hkind
  · intro t s
    obtain ⟨u, hexec, hregs, hdrawn, hresult, hdiag⟩ := rdMeasPoll_frame t s
    obtain ⟨v, hread, hresponse⟩ := sdMeasHm_response .none u
    simp only [hregs] at hresponse
    refine ⟨u, hexec, hregs, ?_, hdrawn, hresult, hdiag, v, hread, ?_, ?_⟩
    · simp only [hregs, buildResponse_length]
      rfl
    · simp only [hresponse, hregs, buildResponse_frame6_take]
    · rintro rfl
      simp only [hresponse, hregs]
      exact buildResponse_getLast?_ne (by decide) _
  · obtain ⟨u, hexec, hregs, -⟩ :=
      rdMeasPoll_frame .none (load [.draw [.int10 0, .frac 0 1, .int10 0, .frac 0 1]] State.reset)
    obtain ⟨htemp, hhum⟩ := measured_of_zero_draws
    refine ⟨u, hexec, ?_⟩
    simp only [hregs, htemp, hhum]
    decide +kernel

end Sys2Proof.Machine
end

section
/-! PROOFS. The command decoder's obligations (spec/41_command_decoder.md): the SendingData commands (R131 to R136). -/

namespace Sys2Proof.Machine

/-! ## The user register read back (R131) -/

theorem sdUserread_frame (t : Tail) (s : State) : ∃ u, exec (.sdUserread t) s = .next u ∧
    u.regs =
      { s.regs with
        state := .sendingData
        registerAddress := 0x00E7#16
        registerData := t.data?.getD s.regs.registerData
        pendingResponse := [s.regs.userRegister, xorSum ([0xFC#8, 0xE7#8] ++ t.bytes ++ [s.regs.userRegister])] } ∧
    PortsKept s u ∧ u.result = .none ∧ u.diag = diagAfter s .none := by
  obtain ⟨hkept, hresult, hdiag⟩ := (beginWrite_endsQuietly .sendingData (some codeUserRead) t s).respond
    (frame selSendingData codeUserRead t) [s.regs.userRegister]
  have huser : (beginWrite .sendingData (some codeUserRead) t s).regs.userRegister = s.regs.userRegister := by
    rw [beginWrite_regs]
  refine ⟨_, congrArg (fun d => Host.Outcome.next (respond _ [d] _)) huser, ?_, hkept, hresult, hdiag⟩
  rw [respond_beginWrite_regs]
  rfl

theorem decode_sdUserread (l : FrameLayout) : decode l [0xFC#8, 0xE7#8] = .sdUserread .none := by
  cases l <;> decide

/-- Settles O22: the response is fixed by `sdUserread_frame`, and a `READ` returns the buffer, whatever the user register has become. -/
theorem userReadBuildsTwoBytes : Obligations.UserReadBuildsTwoBytes := by
  refine ⟨fun _ => rfl, decode_sdUserread, ?_, ?_⟩
  · intro t s
    obtain ⟨u, hexec, hregs, hkept, hresult, hdiag⟩ := sdUserread_frame t s
    exact ⟨u, hexec, hregs, hkept, hresult, hdiag, fun later count => ⟨_, exec_read count (setUser later u), rfl⟩⟩
  · obtain ⟨u, hexec, hregs, -⟩ := sdUserread_frame .none State.reset
    refine ⟨u, (exec_write_of_decode (decode_sdUserread _)).trans hexec, ?_⟩
    rw [hregs]
    decide

/-! ## The placeholders (R133, R134) -/

theorem xorSum_zeros (n : Nat) : xorSum (zeros n) = 0x00#8 := by
  induction n with
  | zero => rfl
  | succ n ih => rw [zeros, List.replicate_succ, xorSum_cons, ← zeros, ih, BitVec.xor_zero]

theorem buildResponse_zeros (w : List Byte) (n : Nat) : buildResponse w (zeros n) = List.replicate n 0x00#8 ++ [xorSum w] := by
  rw [buildResponse, xorSum_append, xorSum_zeros, BitVec.xor_zero, zeros]

/-- A read-setup of a one-byte code that answers `n` zero bytes. -/
theorem zeros_frame {code : Code} (hcode : code.ule 0x00FF#16 = true) (n : Nat) (t : Tail) (s : State) :
    let u := respond (frame selSendingData code t) (zeros n) (beginWrite .sendingData (some code) t s)
    u.regs =
      { s.regs with
        state := .sendingData
        registerAddress := code
        registerData := t.data?.getD s.regs.registerData
        pendingResponse := List.replicate n 0x00#8 ++ [xorSum ([0xFC#8, trunc8 code] ++ t.bytes)] } ∧
    PortsKept s u ∧ u.result = .none ∧ u.diag = diagAfter s .none := by
  obtain ⟨hkept, hresult, hdiag⟩ := (beginWrite_endsQuietly .sendingData (some code) t s).respond
    (frame selSendingData code t) (zeros n)
  refine ⟨?_, hkept, hresult, hdiag⟩
  rw [respond_beginWrite_regs, buildResponse_zeros, frame_selSendingData, codeBytes, if_pos hcode]
  rfl

theorem decode_sdOcm1 (l : FrameLayout) : decode l [0xFC#8, 0xFA#8] = .sdOcm1 .none := by
  cases l <;> decide

theorem decode_sdOcm2 (l : FrameLayout) : decode l [0xFC#8, 0xFC#8] = .sdOcm2 .none := by
  cases l <;> decide

/-- Settles O24: both commands are `zeros_frame`, and the two examples are `zeros_frame` at reset. -/
theorem placeholderPayloadsAreZero : Obligations.PlaceholderPayloadsAreZero := by
  refine ⟨fun _ => rfl, decode_sdOcm1, fun _ => rfl, decode_sdOcm2, ?_, ?_, ?_⟩
  · rintro t s i code n (⟨rfl, rfl, rfl⟩ | ⟨rfl, rfl, rfl⟩)
    · exact ⟨_, rfl, zeros_frame (by decide) 9 t s⟩
    · exact ⟨_, rfl, zeros_frame (by decide) 7 t s⟩
  · obtain ⟨hregs, -⟩ := zeros_frame (code := codeOnChipMemory1) (by decide) 9 .none State.reset
    refine ⟨_, exec_write_of_decode (decode_sdOcm1 _), ?_⟩
    rw [hregs]
    decide
  · obtain ⟨hregs, -⟩ := zeros_frame (code := codeOnChipMemory2) (by decide) 7 .none State.reset
    refine ⟨_, exec_write_of_decode (decode_sdOcm2 _), ?_⟩
    rw [hregs]
    decide

/-! ## What they share (R136) -/

/-- Settles O26, by what every SendingData command does (`exec_sending`). -/
theorem sendingDataExit : Obligations.SendingDataExit := by
  intro i s b hkind hencode
  obtain ⟨code, t, p, v, hlatches, hframe, hexec, hregs, hkept, hresult⟩ := exec_sending hkind s
  obtain rfl : b = frame selSendingData code t := Option.some.inj (hencode.symm.trans hframe)
  refine ⟨_, p, code, t, hlatches, hexec, ?_, hkept.trans (respond_kept _ _ v), hresult⟩
  rw [respond_regs, hregs, beginWrite_regs]
  rfl

end Sys2Proof.Machine
end

section
/-! PROOFS. The command decoder's obligations (spec/41_command_decoder.md): the Idle and unrecognized branches, the latches, the state
machine (R121, R137 to R139). -/

namespace Sys2Proof.Machine

/-- Settles O27: the example is `idleAny_frame` at reset. -/
theorem idleWriteOnlyLatches : Obligations.IdleWriteOnlyLatches := by
  refine ⟨command_idle, idleAny_frame, ?_⟩
  obtain ⟨u, hexec, hregs, -⟩ := idleAny_frame 0x00E6#16 (.data 0x99#8 []) State.reset
  exact ⟨u, (exec_write_of_decode (by decide)).trans hexec, hregs⟩

/-- Settles O28: the examples are `unkAny_frame` at reset, in either layout. -/
theorem unrecognizedStateOnlyLatches : Obligations.UnrecognizedStateOnlyLatches := by
  refine ⟨fun sel code t hidle hrd hsd => command_unrecognized hrd hsd hidle code t, unkAny_frame, ?_, ?_⟩
  · obtain ⟨u, hexec, hregs, -⟩ := unkAny_frame 0x0042#16 0x00E7#16 .none State.reset
    exact ⟨u, (exec_write_of_decode (by decide)).trans hexec, hregs⟩
  · obtain ⟨u, hexec, hregs, -⟩ := unkAny_frame 0x00F3#16 0x002D#16 (.data 0xE6#8 [0x05#8])
      { State.reset with params := { frameLayout := .positional } }
    exact ⟨u, (exec_write_of_decode (by decide)).trans hexec, hregs⟩

/-- Settles O29: a `WRITE` is its command (`exec_resolved`), and for what is no `WRITE` the table is `exec_nextPhase`. -/
theorem stateTransitionTable : Obligations.StateTransitionTable := by
  intro i s
  obtain ⟨u, hexec, hstate⟩ := exec_nextPhase _ s (resolved_ne_write s.params.frameLayout i)
  refine ⟨u, (exec_resolved i s).trans hexec, hstate.trans ?_⟩
  unfold nextPhase
  simp only [resolved_eq_reset_iff]
  cases (resolved s.params.frameLayout i).kind <;> rfl

/-- A command that latches a register code ends with that code in `registerAddress`, or is the soft reset that clears it (R121, R122). -/
theorem exec_command_address (sel code : Code) (t : Tail) (s : State) :
    ∃ u, exec (command (.full sel code t)) s = .next u ∧
      (u.regs.registerAddress = code ∨ command (.full sel code t) = .rdSoftreset t) := by
  have hlatches := command_latches sel code t
  by_cases hreset : (command (.full sel code t)).kind = .softReset
  · have heq := eq_rdSoftreset_of_kind hreset hlatches
    exact ⟨_, by rw [heq]; rfl, .inr heq⟩
  · obtain ⟨u, hexec, hlatched⟩ := exec_latched hlatches hreset s
    exact ⟨u, hexec, .inl hlatched.address⟩

/-- Settles O30: the latches are `exec_latched`; the dispatch reads the parsed fields and not the state, whence the stale latch has no
influence; `F3 2D` is RD.OTHER without a code. -/
theorem writesLatchTheirFields : Obligations.WritesLatchTheirFields := by
  refine ⟨?_, ?_, ?_⟩
  · intro i code t s hlatches hkind
    obtain ⟨u, hexec, haddress, hdata⟩ := exec_latched hlatches hkind s
    exact ⟨u, hexec, haddress, hdata⟩
  · intro b sel code stale t s hparse
    obtain ⟨u, hexec, haddress⟩ := exec_command_address sel code t (setAddress stale s)
    have hdecode : decode s.params.frameLayout b = command (.full sel code t) := congrArg command hparse
    exact ⟨u, (exec_write_of_decode (s := setAddress stale s) hdecode).trans hexec, hexec, haddress⟩
  · intro s stale
    obtain ⟨u, hexec, hregs, hkept, -⟩ := rdOther_frame none .none (setAddress stale { s with params := {} })
    exact ⟨u, (exec_write_of_decode rfl).trans hexec, hregs, hkept.rng⟩

end Sys2Proof.Machine
end

section
/-! PROOFS. The measurement synthesizer's obligations (spec/42_measurement_synthesizer.md): the noise model (R151). -/

namespace Sys2Proof.Machine

/-! ## The noise model (R151) -/

theorem sample_plus {k : Fin 10} (h : 6 ≤ k.val) (mean sigma : REAL) (u : UnitReal) :
    sample mean sigma k u = mean * (1 + u.val / (2 * sigma)) := if_pos h

theorem sample_minus {k : Fin 10} (h : k.val ≤ 5) (mean sigma : REAL) (u : UnitReal) :
    sample mean sigma k u = mean * (1 - u.val / (2 * sigma)) := if_neg (by omega)

theorem sample_of_unit_zero (mean sigma : REAL) (k : Fin 10) {u : UnitReal} (h : u.val = 0) : sample mean sigma k u = mean := by
  rcases le_or_gt 6 k.val with hk | hk
  · rw [sample_plus hk, h, zero_div, add_zero, mul_one]
  · rw [sample_minus (Nat.le_of_lt_succ hk), h, zero_div, sub_zero, mul_one]

/-- In either branch a sample is the mean scaled by `1 + d`, with the relative deviation `d` strictly within `1 / (2 * sigma)`. -/
theorem sample_deviation (mean : REAL) {sigma : REAL} (hsigma : 0 < sigma) (k : Fin 10) (u : UnitReal) :
    ∃ d : REAL, sample mean sigma k u = mean * (1 + d) ∧ -(1 / (2 * sigma)) < d ∧ d < 1 / (2 * sigma) := by
  obtain ⟨hnonneg, hlt⟩ := u.property
  have hwidth : 0 < 2 * sigma := by linarith
  have hlo : 0 ≤ u.val / (2 * sigma) := div_nonneg hnonneg hwidth.le
  have hhi : u.val / (2 * sigma) < 1 / (2 * sigma) := div_lt_div_of_pos_right hlt hwidth
  rcases le_or_gt 6 k.val with hk | hk
  · exact ⟨_, sample_plus hk mean sigma u, by linarith, hhi⟩
  · have hminus : sample mean sigma k u = mean * (1 + -(u.val / (2 * sigma))) := by
      rw [sample_minus (Nat.le_of_lt_succ hk), sub_eq_add_neg]
    exact ⟨_, hminus, by linarith, by linarith⟩

theorem sample_band {mean sigma : REAL} (hmean : 0 < mean) (hsigma : 0 < sigma) (k : Fin 10) (u : UnitReal) :
    mean * (1 - 1 / (2 * sigma)) < sample mean sigma k u ∧ sample mean sigma k u < mean * (1 + 1 / (2 * sigma)) := by
  obtain ⟨d, hsample, hlo, hhi⟩ := sample_deviation mean hsigma k u
  rw [hsample]
  exact ⟨mul_lt_mul_of_pos_left (by linarith) hmean, mul_lt_mul_of_pos_left (by linarith) hmean⟩

theorem sample_plus_lt_of_mean_neg {mean sigma : REAL} (hmean : mean < 0) (hsigma : 0 < sigma) {k : Fin 10} (hk : 6 ≤ k.val)
    {u : UnitReal} (hu : 0 < u.val) : sample mean sigma k u < mean := by
  have hdeviation : 0 < u.val / (2 * sigma) := div_pos hu (by linarith)
  rw [sample_plus hk]
  exact mul_lt_of_one_lt_right hmean (by linarith)

/-- Settles O32: the band is that of the relative deviation, the rest is by the branch that `k` takes. -/
theorem sampleFollowsTheFormula : Obligations.SampleFollowsTheFormula := by
  refine ⟨fun mean sigma k u hk => sample_plus hk mean sigma u, fun mean sigma k u hk => sample_minus hk mean sigma u,
    fun mean sigma k u hu => sample_of_unit_zero mean sigma k hu, fun mean sigma k u hmean hsigma => sample_band hmean hsigma k u,
    fun mean sigma k u hmean hsigma hk hu => sample_plus_lt_of_mean_neg hmean hsigma hk hu, fun u hu => ⟨?_, ?_⟩⟩
  · rw [sample_plus (by decide), hu]
    norm_num
  · rw [sample_minus (by decide), hu]
    norm_num

end Sys2Proof.Machine
end

section
/-! PROOFS. The measurement synthesizer's obligations (spec/42_measurement_synthesizer.md): resolution packing (R157 to R159). -/

namespace Sys2Proof.Machine

/-! ## The four modes (R23, R157) -/

theorem modeOf_cases (ur : Byte) : modeOf ur = 0x00#8 ∨ modeOf ur = 0x01#8 ∨ modeOf ur = 0x80#8 ∨ modeOf ur = 0x81#8 := by
  revert ur
  decide

theorem temperatureBits_of_modeOf (ur : Byte) :
    modeOf ur = 0x00#8 ∧ temperatureBits (modeOf ur) = 14 ∨ modeOf ur = 0x01#8 ∧ temperatureBits (modeOf ur) = 12 ∨
      modeOf ur = 0x80#8 ∧ temperatureBits (modeOf ur) = 13 ∨ modeOf ur = 0x81#8 ∧ temperatureBits (modeOf ur) = 11 := by
  rcases modeOf_cases ur with h | h | h | h <;> rw [h] <;> decide

theorem temperatureBits_bounds (mode : Byte) : 11 ≤ temperatureBits mode ∧ temperatureBits mode ≤ 14 := by
  unfold temperatureBits
  split_ifs <;> decide

/-! ## Packing at a width (R158) -/

/-- The generic packing of R158: with `cN` the `n` most significant bits of the code, its top 8 bits, then the rest left-justified. -/
def packWidth (n : Nat) (c : Code) : Packed where
  hi := trunc8 ((c >>> (16 - n)) >>> (n - 8))
  lo := trunc8 (((c >>> (16 - n)) &&& BitVec.ofNat 16 (2 ^ (n - 8) - 1)) <<< (16 - n))

/-- The four shift and mask pairs of R159 are R158 at the width of the mode. -/
theorem packTemp_eq_packWidth (c : Code) (mode : Byte) : packTemp c mode = packWidth (temperatureBits mode) c := by
  unfold packTemp temperatureBits
  split_ifs <;> rfl

section
variable {n : Nat} (hlo : 8 ≤ n) (hhi : n ≤ 16) (c : Code)
include hlo hhi

theorem packWidth_hi : (packWidth n c).hi = c.extractLsb' 8 8 := by
  have hshift : (16 - n) + (n - 8) = 8 := by omega
  rw [packWidth, ← BitVec.shiftRight_add, hshift]
  rfl

theorem packWidth_hi_toNat : (packWidth n c).hi.toNat = c.toNat / 2 ^ (16 - n) / 2 ^ (n - 8) := by
  have hshift : (16 - n) + (n - 8) = 8 := by omega
  have hcode := c.isLt
  rw [packWidth_hi hlo hhi, BitVec.extractLsb'_toNat, Nat.div_div_eq_div_mul, ← pow_add, hshift, Nat.shiftRight_eq_div_pow,
    Nat.mod_eq_of_lt (by omega)]

/-- The justified bits fit the byte, so that no truncation acts. -/
theorem packWidth_lo_toNat :
    (packWidth n c).lo.toNat = c.toNat / 2 ^ (16 - n) % 2 ^ (n - 8) * 2 ^ (16 - n) := by
  have hbyte : 2 ^ (n - 8) * 2 ^ (16 - n) = 256 := by rw [← pow_add, show n - 8 + (16 - n) = 8 by omega]; rfl
  have hmask : 2 ^ (n - 8) - 1 < 2 ^ 16 := by
    have := Nat.pow_le_pow_right (show 0 < 2 by decide) (show n - 8 ≤ 8 by omega)
    omega
  have hfit : c.toNat / 2 ^ (16 - n) % 2 ^ (n - 8) * 2 ^ (16 - n) < 256 :=
    hbyte ▸ Nat.mul_lt_mul_of_pos_right (Nat.mod_lt _ (Nat.two_pow_pos _)) (Nat.two_pow_pos _)
  simp only [packWidth, BitVec.toNat_setWidth, BitVec.toNat_shiftLeft, BitVec.toNat_and, BitVec.toNat_ofNat,
    BitVec.toNat_ushiftRight, Nat.mod_eq_of_lt hmask, Nat.and_two_pow_sub_one_eq_mod, Nat.shiftLeft_eq, Nat.shiftRight_eq_div_pow]
  omega

/-- The layout of the low byte: bit `i` is bit `i` of the code down to bit `16 - n`, and 0 below it. -/
theorem packWidth_lo_getLsbD {i : Nat} (hi : i < 8) :
    (packWidth n c).lo.getLsbD i = (decide (16 - n ≤ i) && c.getLsbD i) := by
  rw [BitVec.getLsbD, packWidth_lo_toNat hlo hhi, Nat.testBit_mul_two_pow, Nat.testBit_mod_two_pow, Nat.testBit_div_two_pow]
  by_cases hkept : 16 - n ≤ i
  · have hmasked : i - (16 - n) < n - 8 := by omega
    simp only [hkept, hmasked, decide_true, Bool.true_and, Nat.sub_add_cancel hkept, BitVec.getLsbD]
  · simp only [hkept, decide_false, Bool.false_and]

theorem packWidth_statusBits (hstatus : n ≤ 14) : statusBits (packWidth n c) = 0b00#2 := by
  ext i hi
  have hdropped : ¬ 16 - n ≤ i := by omega
  rw [statusBits, BitVec.getElem_setWidth, packWidth_lo_getLsbD hlo hhi c (by omega)]
  simp [hdropped]

end

/-- Settles O37: in each mode the table is the packing of R158 at the width of the mode, and its clauses hold at every width. -/
theorem temperaturePackingTable : Obligations.TemperaturePackingTable := by
  refine ⟨fun ur c => ⟨temperatureBits_of_modeOf ur, ?_⟩, by decide⟩
  obtain ⟨hmin, hmax⟩ := temperatureBits_bounds (modeOf ur)
  rw [packTemp_eq_packWidth]
  generalize temperatureBits (modeOf ur) = n at hmin hmax
  have hlo : 8 ≤ n := by omega
  have hhi : n ≤ 16 := by omega
  refine ⟨packWidth_hi_toNat hlo hhi c, packWidth_hi hlo hhi c, packWidth_lo_toNat hlo hhi c, fun i hkept hi => ?_,
    fun i hdropped => ?_, packWidth_statusBits hlo hhi c hmax⟩
  · rw [packWidth_lo_getLsbD hlo hhi c hi, decide_eq_true hkept, Bool.true_and]
  · rw [packWidth_lo_getLsbD hlo hhi c (by omega), decide_eq_false (by omega), Bool.false_and]

end Sys2Proof.Machine
end

section
/-! PROOFS. The frame builder's obligations (spec/43_crc_and_frame.md): what a master may check in a response (R184, R187). -/

namespace Sys2Proof.Machine

/-- The last byte cancels the write and the payload, whatever they are. -/
theorem xorSum_append_buildResponse (w p : List Byte) : xorSum (w ++ buildResponse w p) = 0x00#8 := by
  have hlast : xorSum [xorSum (w ++ p)] = xorSum (w ++ p) := by rw [xorSum_cons]; exact BitVec.xor_zero
  rw [buildResponse, ← List.append_assoc, xorSum_append, hlast, BitVec.xor_self]

/-- The poll and the measurement read-setup answer over their own frame with two measurements: those just taken, those stored. -/
theorem exec_answersMeasurement {i : Instr} {t : Tail} {w : List Byte} (hi : i = .rdMeasPoll t ∨ i = .sdMeasHm t)
    (hw : encode i = some w) (s : State) :
    ∃ u temp hum, exec i s = .next u ∧ u.regs.pendingResponse = buildResponse w (frame6 temp hum) := by
  rcases hi with rfl | rfl
  · obtain rfl := Option.some.inj hw
    obtain ⟨u, hexec, hregs, -⟩ := rdMeasPoll_frame t s
    exact ⟨u, _, _, hexec, by rw [hregs, frame_rdMeasPoll]⟩
  · obtain rfl := Option.some.inj hw
    obtain ⟨u, hexec, hresponse⟩ := sdMeasHm_response t s
    exact ⟨u, _, _, hexec, hresponse⟩

/-- Settles O44: a measurement's response is `BuildResponse` over `Frame6`, whose bytes at offsets 2 and 5 are `CRC8` by definition and
whose last byte cancels the rest; every other command that answers is a SendingData one (`exec_sending`). -/
theorem masterVerifiesAMeasurement : Obligations.MasterVerifiesAMeasurement := by
  refine ⟨fun i t s w hi hw => ?_, fun i s w hi hw => ?_⟩
  · obtain ⟨u, temp, hum, hexec, hresponse⟩ := exec_answersMeasurement hi hw s
    have hcheck : xorSum (w ++ u.regs.pendingResponse) = 0x00#8 := by
      rw [hresponse, xorSum_append_buildResponse]
    exact ⟨u, _, _, _, _, _, _, _, hexec, hresponse, rfl, rfl, hcheck, rfl⟩
  · rcases hi with hsending | ⟨t, hpoll⟩
    · obtain ⟨code, t, p, v, -, hframe, hexec, -⟩ := exec_sending hsending s
      obtain rfl : w = frame selSendingData code t := Option.some.inj (hw.symm.trans hframe)
      exact ⟨_, p, hexec, by rw [respond_regs, buildResponse]⟩
    · obtain ⟨u, temp, hum, hexec, hresponse⟩ := exec_answersMeasurement (.inl hpoll) hw s
      exact ⟨u, _, hexec, hresponse⟩

end Sys2Proof.Machine
end

section
/-! PROOFS. The obligations about exceptions (spec/60_exceptions.md): the write that is too short (R202), and that no anomaly outlives its
operation (R209). -/

namespace Sys2Proof.Machine

/-! ## The short write (R202) -/

theorem short_frame (b : Option Byte) (s : State) : ∃ u, exec (.short b) s = .next u ∧
    u.regs = s.regs ∧ PortsKept s u ∧ u.result = .none ∧ u.diag = diagAfter s (.shortWrite (shortLength b)) := by
  have hbegin : EndsQuietly s .none (beginOp s) := ⟨beginOp_kept s, beginOp_result s, beginOp_diagAfter s⟩
  obtain ⟨hkept, hresult, hdiag⟩ := hbegin.raiseAnomaly (.shortWrite (shortLength b))
  exact ⟨_, rfl, raiseAnomaly_regs _ _, hkept, hresult, hdiag⟩

/-- Settles O15: a raw write of length 0 or 1 is SHORT in either layout (`exec_write`), and SHORT is `short_frame`. -/
theorem shortWriteChangesNothing : Obligations.ShortWriteChangesNothing := by
  refine ⟨fun b s => ?_, fun b s hlength => ?_⟩
  · cases b with
    | none => exact short_frame none s
    | some b => exact short_frame (some b) s
  · match b, hlength with
    | [], _ => exact short_frame none s
    | [b], _ => exact short_frame (some b) s

/-! ## Updates that do not look at the recorded event -/

/-- The state with another recorded event (R201). -/
def withEvent (e : DiagEvent) (s : State) : State :=
  { s with diag := e }

/-- `f` leaves the configuration, and neither reads nor records the event. -/
structure Silent (f : State → State) : Prop where
  params   : ∀ s, (f s).params = s.params
  commutes : ∀ e s, f (withEvent e s) = withEvent e (f s)

theorem Silent.comp {f g : State → State} (hg : Silent g) (hf : Silent f) : Silent fun s => g (f s) where
  params s := (hg.params _).trans (hf.params s)
  commutes e s := by rw [hf.commutes, hg.commutes]

theorem silent_id : Silent fun s => s := ⟨fun _ => rfl, fun _ _ => rfl⟩

theorem silent_setPhase (p : Phase) : Silent (setPhase p) := ⟨fun _ => rfl, fun _ _ => rfl⟩

theorem silent_setUser_registerData : Silent fun s => setUser s.regs.registerData s := ⟨fun _ => rfl, fun _ _ => rfl⟩

theorem silent_setMean (v : REAL) : Silent (setMean v) := ⟨fun _ => rfl, fun _ _ => rfl⟩

theorem silent_resetState : Silent resetState := ⟨fun _ => rfl, fun _ _ => rfl⟩

theorem silent_respond (w : List Byte) (payload : Params → Registers → List Byte) :
    Silent fun s => respond w (payload s.params s.regs) s := ⟨fun _ => rfl, fun _ _ => rfl⟩

theorem silent_returning (r : Registers → OpResult) : Silent fun s => returning (r s.regs) s :=
  ⟨fun _ => rfl, fun _ _ => rfl⟩

theorem silent_latchCode (code : Option Code) : Silent (latchCode code) := by
  cases code <;> exact ⟨fun _ => rfl, fun _ _ => rfl⟩

theorem silent_latchData (t : Tail) : Silent (latchData t) := by
  cases t <;> exact ⟨fun _ => rfl, fun _ _ => rfl⟩

/-- What `beginWrite` does after `beginOp` (R101). -/
theorem silent_latches (ph : Phase) (code : Option Code) (t : Tail) :
    Silent fun s => latchData t (latchCode code (setPhase ph s)) :=
  (silent_latchData t).comp ((silent_latchCode code).comp (silent_setPhase ph))

/-- A measurement records no event because it never saturates (R163). -/
theorem silent_measureTemperature : Silent measureTemperature where
  params := measureTemperature_params
  commutes e s := by
    simp only [measureTemperature, raiseIfSaturated, if_pos (sat16_temperature _ _ _)]
    rfl

theorem silent_measureHumidity : Silent measureHumidity where
  params s := (raiseIfSaturated_kept _ _ _).params
  commutes e s := by
    simp only [measureHumidity, raiseIfSaturated, if_pos (sat16_humidity _ _ _ _)]
    rfl

theorem silent_performMeasure : Silent performMeasure := silent_measureHumidity.comp silent_measureTemperature

/-! ## Every operation begins, updates silently, and raises at most one anomaly (R207) -/

theorem raiseAnomaly_none (s : State) : raiseAnomaly .none s = s := by
  have hdiag : (raiseAnomaly .none s).diag = s.diag := by
    rw [raiseAnomaly_diag]
    split_ifs with h
    · exact h.2.symm
    · rfl
  exact congrArg (withEvent · s) hdiag

theorem raiseIfUnrecognized_eq_raiseAnomaly (code : Code) : ∃ e, ∀ s, raiseIfUnrecognized code s = raiseAnomaly e s := by
  by_cases h : code = codeSoftReset ∨ code = codeUserWrite ∨ code = codeTempHumPoll
  · exact ⟨.none, fun s => (if_pos h).trans (raiseAnomaly_none s).symm⟩
  · exact ⟨_, fun s => if_neg h⟩

/-- From every state `i` begins, updates silently, then raises the anomaly `e`, or none where `e` is `.none`. -/
def Raises (i : Instr) (e : DiagEvent) : Prop :=
  ∃ f, Silent f ∧ ∀ s, exec i s = .next (raiseAnomaly e (f (beginOp s)))

theorem raises_none {i : Instr} {f : State → State} (hf : Silent f) (hexec : ∀ s, exec i s = .next (f (beginOp s))) :
    Raises i .none :=
  ⟨f, hf, fun s => by rw [hexec, raiseAnomaly_none]⟩

/-- A write that latches, runs the handler `f` and ends Idle (R130). -/
theorem raises_none_of_exitIdle {i : Instr} {f : State → State} {ph : Phase} {code : Option Code} {t : Tail} (hf : Silent f)
    (hexec : ∀ s, exec i s = exitIdle (f (beginWrite ph code t s))) : Raises i .none :=
  raises_none ((silent_setPhase .idle).comp (hf.comp (silent_latches ph code t))) hexec

/-- A read-setup, which latches and answers at once (R136). -/
theorem raises_none_of_respond {i : Instr} {w : List Byte} {ph : Phase} {code : Option Code} {t : Tail}
    (payload : Params → Registers → List Byte)
    (hexec : ∀ s, exec i s =
      .next (respond w (payload (beginWrite ph code t s).params (beginWrite ph code t s).regs) (beginWrite ph code t s))) :
    Raises i .none :=
  raises_none ((silent_respond w payload).comp (silent_latches ph code t)) hexec

theorem exec_raises (i : Instr) (hwrite : ∀ b, i ≠ .write b) : ∃ e, Raises i e := by
  cases i with
  | short b => exact ⟨_, _, silent_id, fun _ => rfl⟩
  | rdSoftreset t => exact ⟨_, raises_none_of_exitIdle silent_resetState fun _ => rfl⟩
  | rdUserwrite t => exact ⟨_, raises_none_of_exitIdle silent_setUser_registerData fun _ => rfl⟩
  | rdUserread t | rdOcm1 t | rdOcm2 t | idleAny code t => exact ⟨_, raises_none_of_exitIdle silent_id fun _ => rfl⟩
  | rdMeasHm t => exact ⟨_, raises_none_of_exitIdle silent_performMeasure fun _ => rfl⟩
  | rdMeasPoll t =>
    have hrespond := silent_respond (frame selReceivingData codeTempHumPoll t)
      fun _ r => frame6 r.lastTemperatureCode r.lastHumidityCode
    exact ⟨_, raises_none_of_exitIdle (hrespond.comp silent_performMeasure) fun _ => rfl⟩
  | rdOther code t =>
    exact ⟨_, _, (silent_setPhase .idle).comp (silent_latches .receivingData code t), fun _ => rfl⟩
  | unkAny sel code t =>
    exact ⟨_, _, (silent_setPhase .idle).comp (silent_latches .idle (some code) t), fun _ => rfl⟩
  | sdUserread t => exact ⟨_, raises_none_of_respond (fun _ r => [r.userRegister]) fun _ => rfl⟩
  | sdMeasHm t =>
    exact ⟨_, raises_none_of_respond (fun _ r => frame6 r.lastTemperatureCode r.lastHumidityCode) fun _ => rfl⟩
  | sdOcm1 t | sdOcm2 t => exact ⟨_, raises_none_of_respond (fun _ _ => zeros _) fun _ => rfl⟩
  | sdOther code t =>
    obtain ⟨e, hraise⟩ := raiseIfUnrecognized_eq_raiseAnomaly code
    have hrespond := silent_respond (frame selSendingData code t) fun p _ => p.defaultPayload
    refine ⟨e, _, hrespond.comp (silent_latches .sendingData (some code) t), fun s => ?_⟩
    change execSdOther code t s = _
    rw [execSdOther, hraise]
    rfl
  | write b => exact absurd rfl (hwrite b)
  | read count => exact ⟨_, raises_none (silent_returning fun r => .bytes r.pendingResponse) (exec_read count)⟩
  | reset => exact ⟨_, raises_none silent_resetState fun _ => rfl⟩
  | setMeanHumidity v => exact ⟨_, raises_none (silent_setMean v) (exec_setMeanHumidity v)⟩
  | getMeanHumidity => exact ⟨_, raises_none (silent_returning fun r => .real r.meanHumidity) exec_getMeanHumidity⟩

/-! ## No anomaly outlives its operation (R209) -/

theorem beginOp_withEvent_of_diag_on {s : State} (h : s.params.diag = true) (e : DiagEvent) :
    beginOp (withEvent e s) = beginOp s := by
  simp [beginOp, withEvent, h]

theorem beginOp_withEvent_of_diag_off {s : State} (h : s.params.diag = false) (e : DiagEvent) :
    beginOp (withEvent e s) = withEvent e (beginOp s) := by
  simp [beginOp, withEvent, h]

/-- Whatever event stood before it, an operation ends the same: with `DIAG` on its start clears the event, with `DIAG` off it carries
the event through. -/
theorem Raises.ends_same {i : Instr} {a : DiagEvent} (h : Raises i a) (s : State) (e : DiagEvent) :
    ∃ u v, exec i s = .next u ∧ exec i (withEvent e s) = .next v ∧
      v.regs = u.regs ∧ PortsKept u v ∧ v.result = u.result ∧ (s.params.diag = true → v.diag = u.diag) := by
  obtain ⟨f, hf, hexec⟩ := h
  refine ⟨_, _, hexec s, hexec _, ?_⟩
  cases hdiag : s.params.diag with
  | true =>
    rw [beginOp_withEvent_of_diag_on hdiag]
    exact ⟨rfl, ⟨rfl, rfl, rfl⟩, rfl, fun _ => rfl⟩
  | false =>
    rw [beginOp_withEvent_of_diag_off hdiag, hf.commutes]
    exact ⟨rfl, ⟨rfl, rfl, rfl⟩, rfl, fun hon => absurd hon Bool.false_ne_true⟩

/-- Settles O51: a `WRITE` is its command (`exec_resolved`), which the recorded event does not select, and every command raises at most
one anomaly after an update that does not look at the event (`exec_raises`). -/
theorem anomaliesAreNotSticky : Obligations.AnomaliesAreNotSticky := by
  intro i s e
  obtain ⟨a, hraises⟩ := exec_raises _ (resolved_ne_write s.params.frameLayout i)
  obtain ⟨u, v, hu, hv, hsame⟩ := hraises.ends_same s e
  exact ⟨u, v, (exec_resolved i s).trans hu, (exec_resolved i _).trans hv, hsame⟩

end Sys2Proof.Machine
end

section
/-! PROOFS. The obligations about reset and hazards (spec/70_reset_and_hazards.md): what a `READ` returns (R234, R235, R242). -/

namespace Sys2Proof.Machine

/-! ## A READ returns the buffer as it stands (R102, R242) -/

theorem read_returns {s : State} {r : List Byte} (h : s.regs.pendingResponse = r) (count : Int) :
    ∃ v, exec (.read count) s = .next v ∧ v.result = .bytes r :=
  ⟨_, exec_read count s, by rw [returning_result, h]⟩

/-- Settles O12: `exec_read` has the same right side for every count. -/
theorem countDoesNothing : Obligations.CountDoesNothing := by
  intro count count' s
  exact ⟨by rw [exec_read, exec_read], read_returns rfl count⟩

/-! ## What leaves the response as it is (R234) -/

theorem beginWrite_pendingResponse (ph : Phase) (code : Option Code) (t : Tail) (s : State) :
    (beginWrite ph code t s).regs.pendingResponse = s.regs.pendingResponse := by
  rw [beginWrite_regs]

/-- The operations that replace the response: a reset of either kind (R35, R122), the poll (R126), a SendingData command (R136), and a
raw `WRITE`, which does what its command does (`exec_resolved`). -/
def mayReplaceResponse : Instr → Bool
  | .reset | .rdSoftreset _ | .rdMeasPoll _ | .write _ => true
  | i => i.kind = .sending

theorem exec_keepsResponse {i : Instr} (h : mayReplaceResponse i = false) (s : State) :
    ∃ u, exec i s = .next u ∧ u.regs.pendingResponse = s.regs.pendingResponse := by
  have hbegin := fun ph code t => beginWrite_pendingResponse ph code t s
  cases i with
  | short b | read count | setMeanHumidity v | getMeanHumidity => exact ⟨_, rfl, rfl⟩
  | rdUserwrite t | rdUserread t | rdOcm1 t | rdOcm2 t | rdOther code t => exact ⟨_, rfl, hbegin .receivingData _ t⟩
  | idleAny code t | unkAny sel code t => exact ⟨_, rfl, hbegin .idle _ t⟩
  | rdMeasHm t => exact ⟨_, rfl, by rw [setPhase_regs, performMeasure_regs, hbegin]⟩
  | reset | rdSoftreset t | rdMeasPoll t | write b | sdUserread t | sdMeasHm t | sdOcm1 t | sdOcm2 t | sdOther code t => cases h

/-- R123: the value stored is the data latch after this write's own latching. -/
theorem rdUserwrite_regs (t : Tail) (s : State) : ∃ u, exec (.rdUserwrite t) s = .next u ∧
    u.regs =
      { s.regs with
        state := .idle
        registerAddress := codeUserWrite
        registerData := t.data?.getD s.regs.registerData
        userRegister := t.data?.getD s.regs.registerData } :=
  ⟨_, rfl, by rw [setPhase_regs, setUser_regs, beginWrite_regs]; rfl⟩

/-- Settles O46: no operation listed replaces the response (`exec_keepsResponse`). A read-setup answers with the user register of its
own time (`sdUserread_frame`), and a UserWrite after it writes that register and not the response (`rdUserwrite_regs`). -/
theorem staleResponse : Obligations.StaleResponse := by
  refine ⟨fun i s hi => ?_, fun dd excess s => ?_, fun dd excess s => ?_⟩
  · have hkeeps : mayReplaceResponse i = false := by
      rcases hi with ⟨t, rfl | rfl | rfl | rfl | rfl⟩ | ⟨code, t, rfl⟩ | ⟨sel, code, t, rfl⟩ | ⟨b, rfl⟩ | ⟨code, t, rfl⟩ |
        ⟨n, rfl⟩ | ⟨v, rfl⟩ | rfl <;> rfl
    obtain ⟨u, hexec, hkept⟩ := exec_keepsResponse hkeeps s
    exact ⟨u, hexec, hkept, read_returns hkept⟩
  · obtain ⟨u, hwrite, huser⟩ := rdUserwrite_regs (.data dd excess) s
    obtain ⟨v, hsetup, hresponse, -⟩ := sdUserread_frame .none u
    rw [huser] at hresponse
    obtain ⟨w, hread, hresult⟩ := read_returns (congrArg Registers.pendingResponse hresponse) 0
    exact ⟨u, v, w, hwrite, hsetup, hread, hresult⟩
  · obtain ⟨u, hsetup, hresponse, -⟩ := sdUserread_frame .none s
    obtain ⟨v, hwrite, huser⟩ := rdUserwrite_regs (.data dd excess) u
    rw [hresponse] at huser
    obtain ⟨w, hread, hresult⟩ := read_returns (congrArg Registers.pendingResponse huser) 0
    exact ⟨u, v, w, hsetup, hwrite, hread, hresult⟩

/-! ## When a measurement can be read (R235) -/

/-- R125: the new measurement is in the two codes, and the response is not among the registers written. -/
theorem rdMeasHm_regs (t : Tail) (s : State) : ∃ u, exec (.rdMeasHm t) s = .next u ∧
    u.regs =
      { s.regs with
        state := .idle
        registerAddress := codeTempHumHM
        registerData := t.data?.getD s.regs.registerData
        lastTemperatureCode := measuredTemperature s
        lastHumidityCode := measuredHumidity s } :=
  ⟨_, rfl, by rw [setPhase_regs, performMeasure_beginWrite_regs]; rfl⟩

/-- Settles O47: the HM measurement writes the codes and keeps the response (`rdMeasHm_regs`), the read-setup frames those codes
(`sdMeasHm_response`), and the poll does both (`rdMeasPoll_frame`). -/
theorem hmNeedsAReadSetup : Obligations.HmNeedsAReadSetup := by
  intro s
  constructor
  · obtain ⟨u, hmeasure, hregs⟩ := rdMeasHm_regs .none s
    obtain ⟨v, hsetup, hresponse⟩ := sdMeasHm_response .none u
    rw [hregs] at hresponse
    obtain ⟨r, hread, hresult⟩ := read_returns hresponse 0
    exact ⟨u, v, r, hmeasure, by rw [hregs], by rw [hregs], read_returns (by rw [hregs]) 0, hsetup, hread, hresult⟩
  · obtain ⟨u, hpoll, hregs, -⟩ := rdMeasPoll_frame .none s
    obtain ⟨r, hread, hresult⟩ := read_returns (congrArg Registers.pendingResponse hregs) 0
    exact ⟨u, r, hpoll, hread, hresult⟩

end Sys2Proof.Machine
end

section
/-! PROOFS. The encoding obligations (spec/30_encoding.md sections 1 to 5): decoder and encoder are inverse to each other, because the
parse of a frame is (R72 to R77) and the command map loses no field (R81). -/

namespace Sys2Proof

/-! ## One-byte codes (R72) -/

theorem exists_zext16 {code : Code} (h : code.ule 0x00FF#16 = true) : ∃ b : Byte, code = zext16 b := by
  refine ⟨trunc8 code, BitVec.eq_of_toNat_eq ?_⟩
  have hle : code.toNat ≤ 255 := by simpa [BitVec.ule] using h
  simp only [BitVec.toNat_setWidth]
  omega

theorem zext16_inj {a b : Byte} : zext16 a = zext16 b ↔ a = b := by
  refine ⟨fun h => BitVec.eq_of_toNat_eq ?_, congrArg _⟩
  have hn : a.toNat % 65536 = b.toNat % 65536 := by simpa using congrArg BitVec.toNat h
  have ha := a.isLt
  have hb := b.isLt
  omega

theorem zext16_ule (b : Byte) : (zext16 b).ule 0x00FF#16 = true := by
  have := b.isLt
  simp [BitVec.ule]
  omega

theorem codeBytes_zext16 (b : Byte) : codeBytes (zext16 b) = [b] := by
  rw [codeBytes, if_pos (zext16_ule b), trunc8, zext16, BitVec.setWidth_setWidth_of_le _ (by decide), BitVec.setWidth_eq]

/-! ## The tail (R75) -/

@[simp] theorem Tail.bytes_ofBytes (b : List Byte) : (Tail.ofBytes b).bytes = b := by
  cases b <;> rfl

@[simp] theorem Tail.ofBytes_bytes (t : Tail) : Tail.ofBytes t.bytes = t := by
  cases t <;> rfl

theorem Tail.data?_eq_head? (t : Tail) : t.data? = t.bytes.head? := by
  cases t <;> rfl

/-! ## The register field (R74, R84) -/

/-- Under CODED a register code is one of the two two-byte codes, or a byte that does not begin one of them. -/
theorem codeFits_coded_iff {code : Code} {t : Tail} : codeFits .coded code t = true ↔
    code = codeSoftReset ∨ code = codeTempHumPoll ∨
      ∃ b, code = zext16 b ∧ ¬ (b = 0x30#8 ∧ t.bytes.head? = some 0xA2#8) ∧
        ¬ (b = 0x2C#8 ∧ t.bytes.head? = some 0x06#8) := by
  constructor
  · intro h
    simp only [codeFits, Tail.data?_eq_head?, Bool.and_eq_true, Bool.or_eq_true, Bool.not_eq_true', Bool.and_eq_false_iff,
      beq_iff_eq, beq_eq_false_iff_ne] at h
    obtain ⟨⟨(hbyte | hreset) | hpoll, hnot30⟩, hnot2C⟩ := h
    · obtain ⟨b, rfl⟩ := exists_zext16 hbyte
      refine .inr (.inr ⟨b, rfl, ?_, ?_⟩)
      · rintro ⟨rfl, hdata⟩
        exact hnot30.elim (fun hne => hne rfl) fun hne => hne hdata
      · rintro ⟨rfl, hdata⟩
        exact hnot2C.elim (fun hne => hne rfl) fun hne => hne hdata
    · exact .inl hreset
    · exact .inr (.inl hpoll)
  · rintro (rfl | rfl | ⟨b, rfl, hnot30, hnot2C⟩)
    · rfl
    · rfl
    · have h30 : (zext16 b = 0x0030#16 ↔ b = 0x30#8) := zext16_inj (b := 0x30#8)
      have h2C : (zext16 b = codeTempHumHM ↔ b = 0x2C#8) := zext16_inj (b := 0x2C#8)
      simp only [codeFits, Tail.data?_eq_head?, Bool.and_eq_true, Bool.or_eq_true, Bool.not_eq_true', ← Bool.not_eq_true,
        beq_iff_eq, h30, h2C, zext16_ule, true_or, true_and]
      exact ⟨hnot30, hnot2C⟩

theorem codeFits_positional_iff {code : Code} {t : Tail} : codeFits .positional code t = true ↔ ∃ b, code = zext16 b :=
  ⟨exists_zext16, fun ⟨b, hb⟩ => hb ▸ zext16_ule b⟩

theorem parseReg_eq_some_iff {b rest : List Byte} {code : Code} : parseReg b = some (code, rest) ↔
    codeFits .coded code (Tail.ofBytes rest) = true ∧ codeBytes code ++ rest = b := by
  rw [codeFits_coded_iff, Tail.bytes_ofBytes]
  constructor
  · intro h
    match b with
    | [] => cases h
    | [b0] =>
      cases h
      exact ⟨.inr (.inr ⟨b0, rfl, by simp, by simp⟩), by rw [codeBytes_zext16]; rfl⟩
    | b0 :: b1 :: r =>
      simp only [parseReg] at h
      split_ifs at h with hreset hpoll
      · obtain ⟨rfl, rfl⟩ := hreset
        cases h
        exact ⟨.inl rfl, rfl⟩
      · obtain ⟨rfl, rfl⟩ := hpoll
        cases h
        exact ⟨.inr (.inl rfl), rfl⟩
      · cases h
        exact ⟨.inr (.inr ⟨b0, rfl, by simpa using hreset, by simpa using hpoll⟩), by rw [codeBytes_zext16]; rfl⟩
  · rintro ⟨rfl | rfl | ⟨b0, rfl, hreset, hpoll⟩, rfl⟩
    · rfl
    · rfl
    · rw [codeBytes_zext16]
      cases rest with
      | nil => rfl
      | cons d excess =>
        simp only [List.head?_cons, Option.some.injEq] at hreset hpoll
        exact (if_neg hreset).trans (if_neg hpoll)

theorem parseReg_eq_none_iff {b : List Byte} : parseReg b = none ↔ b = [] := by
  match b with
  | [] => simp [parseReg]
  | [b0] => simp [parseReg]
  | b0 :: b1 :: r =>
    simp only [parseReg, reduceCtorEq, iff_false]
    split_ifs <;> simp

/-- A register field begins with the byte `2D` only if it is the code `002D`. -/
theorem codeBytes_head? {code : Code} {t : Tail} (h : codeFits .coded code t = true)
    (hhead : (codeBytes code ++ t.bytes).head? = some 0x2D#8) : code = 0x002D#16 := by
  obtain rfl | rfl | ⟨b, rfl, -, -⟩ := codeFits_coded_iff.mp h
  · exact absurd hhead (show some 0x30#8 ≠ some 0x2D#8 by decide)
  · exact absurd hhead (show some 0x2C#8 ≠ some 0x2D#8 by decide)
  · rw [codeBytes_zext16] at hhead
    cases hhead
    rfl

/-! ## The state-select (R73, R78) -/

theorem parseState_byte {b0 : Byte} {rest : List Byte} (h : ¬ (b0 = 0xF3#8 ∧ rest.head? = some 0x2D#8)) :
    parseState (b0 :: rest) = (zext16 b0, rest) := by
  cases rest with
  | nil => rfl
  | cons b1 rest =>
    simp only [List.head?_cons, Option.some.injEq] at h
    exact if_neg h

/-- A frame begins with `F3 2D`, or its first byte is its state-select. -/
theorem receiving_or_byte (b0 : Byte) (rest : List Byte) :
    (∃ rest', b0 :: rest = 0xF3#8 :: 0x2D#8 :: rest') ∨ ¬ (b0 = 0xF3#8 ∧ rest.head? = some 0x2D#8) := by
  by_cases h : b0 = 0xF3#8 ∧ rest.head? = some 0x2D#8
  · obtain ⟨rfl, hhead⟩ := h
    obtain ⟨rest', rfl⟩ := List.head?_eq_some_iff.mp hhead
    exact .inl ⟨rest', rfl⟩
  · exact .inr h

/-! ## Which fields a frame carries (R73 to R77, R84) -/

/-- The state-select, the register code and the tail are those of some frame of the layout. -/
structure FieldsFit (l : FrameLayout) (sel code : Code) (t : Tail) : Prop where
  select : sel = selReceivingData ∧ l = .coded ∨ ∃ b, sel = zext16 b ∧ ¬ (l = .coded ∧ b = 0xF3#8 ∧ code = 0x002D#16)
  code   : codeFits l code t = true

theorem parseCoded_eq_full_iff {b : List Byte} {sel code : Code} {t : Tail} : parseCoded b = .full sel code t ↔
    ∃ field, parseState b = (sel, field) ∧ codeFits .coded code t = true ∧ field = codeBytes code ++ t.bytes := by
  unfold parseCoded
  constructor
  · intro h
    cases hreg : parseReg (parseState b).2 with
    | none => rw [hreg] at h; cases h
    | some p =>
      rw [hreg] at h
      cases h
      obtain ⟨hfits, hbytes⟩ := parseReg_eq_some_iff.mp hreg
      exact ⟨(parseState b).2, rfl, hfits, by rw [Tail.bytes_ofBytes, hbytes]⟩
  · rintro ⟨_, hstate, hfits, rfl⟩
    have hreg : parseReg (codeBytes code ++ t.bytes) = some (code, t.bytes) :=
      parseReg_eq_some_iff.mpr ⟨by rwa [Tail.ofBytes_bytes], rfl⟩
    simp only [hstate, hreg, Tail.ofBytes_bytes]

theorem parseFrame_coded (b0 b1 : Byte) (rest : List Byte) :
    parseFrame .coded (b0 :: b1 :: rest) = parseCoded (b0 :: b1 :: rest) := rfl

theorem frame_zext16 (b0 : Byte) (code : Code) (t : Tail) : frame (zext16 b0) code t = b0 :: (codeBytes code ++ t.bytes) := by
  rw [frame, codeBytes_zext16]
  rfl

theorem parseState_frame {sel code : Code} {t : Tail} (h : FieldsFit .coded sel code t) :
    parseState (frame sel code t) = (sel, codeBytes code ++ t.bytes) := by
  obtain ⟨⟨rfl, -⟩ | ⟨b0, rfl, hnotF32D⟩, hcode⟩ := h
  · rfl
  · rw [frame_zext16]
    exact parseState_byte fun ⟨hb0, hhead⟩ => hnotF32D ⟨rfl, hb0, codeBytes_head? hcode hhead⟩

/-- The fields a frame is parsed to fit the layout, and spell that frame. -/
theorem fieldsFit_of_parseFrame {l : FrameLayout} {b : List Byte} {sel code : Code} {t : Tail}
    (h : parseFrame l b = .full sel code t) : FieldsFit l sel code t ∧ b = frame sel code t := by
  match l, b with
  | _, [] => cases h
  | _, [_] => cases h
  | .positional, b0 :: b1 :: rest =>
    cases h
    refine ⟨⟨.inr ⟨b0, rfl, by simp⟩, codeFits_positional_iff.mpr ⟨b1, rfl⟩⟩, ?_⟩
    rw [frame_zext16, codeBytes_zext16, Tail.bytes_ofBytes]
    rfl
  | .coded, b0 :: b1 :: rest =>
    obtain ⟨field, hstate, hfits, rfl⟩ := parseCoded_eq_full_iff.mp h
    rcases receiving_or_byte b0 (b1 :: rest) with ⟨rest', heq⟩ | hbyte
    · rw [heq] at hstate ⊢
      cases hstate
      exact ⟨⟨.inl ⟨rfl, rfl⟩, hfits⟩, rfl⟩
    · rw [parseState_byte hbyte] at hstate
      obtain ⟨rfl, hrest⟩ := Prod.mk.inj hstate
      refine ⟨⟨.inr ⟨b0, rfl, ?_⟩, hfits⟩, by rw [frame_zext16, hrest]⟩
      rintro ⟨-, hb0, rfl⟩
      exact hbyte ⟨hb0, by rw [hrest]; rfl⟩

/-- R73 to R77: the parse is a left inverse of `frame` on the fields that fit the layout. -/
theorem parseFrame_frame {l : FrameLayout} {sel code : Code} {t : Tail} (h : FieldsFit l sel code t) :
    parseFrame l (frame sel code t) = .full sel code t := by
  match l with
  | .positional =>
    obtain ⟨⟨-, hl⟩ | ⟨b0, rfl, -⟩, hcode⟩ := h
    · cases hl
    · obtain ⟨b1, rfl⟩ := codeFits_positional_iff.mp hcode
      rw [frame_zext16, codeBytes_zext16]
      exact congrArg (Fields.full _ _) t.ofBytes_bytes
  | .coded =>
    obtain ⟨b0, b1, rest, hb⟩ : ∃ b0 b1 rest, frame sel code t = b0 :: b1 :: rest :=
      match frame sel code t, Laws.FrameLength.frame_length sel code t with
      | b0 :: b1 :: rest, _ => ⟨b0, b1, rest, rfl⟩
    rw [hb, parseFrame_coded, ← hb]
    exact parseCoded_eq_full_iff.mpr ⟨_, parseState_frame h, h.code, rfl⟩

theorem noRegister_of_parseFrame {l : FrameLayout} {b : List Byte} {sel : Code} (h : parseFrame l b = .noRegister sel) :
    l = .coded ∧ b = [0xF3#8, 0x2D#8] := by
  match l, b with
  | _, [] => cases h
  | _, [_] => cases h
  | .positional, b0 :: b1 :: rest => cases h
  | .coded, b0 :: b1 :: rest =>
    refine ⟨rfl, ?_⟩
    rw [parseFrame_coded, parseCoded] at h
    cases hreg : parseReg (parseState (b0 :: b1 :: rest)).2 with
    | some p => rw [hreg] at h; cases h
    | none =>
      have hempty := parseReg_eq_none_iff.mp hreg
      rcases receiving_or_byte b0 (b1 :: rest) with ⟨rest', heq⟩ | hbyte
      · rw [heq] at hempty ⊢
        obtain rfl : rest' = [] := hempty
        rfl
      · rw [parseState_byte hbyte] at hempty
        cases hempty

theorem short_of_parseFrame {l : FrameLayout} {b : List Byte} {b? : Option Byte} (h : parseFrame l b = .short b?) :
    b = b?.toList := by
  match l, b with
  | _, [] => cases h; rfl
  | _, [_] => cases h; rfl
  | .positional, b0 :: b1 :: rest => cases h
  | .coded, b0 :: b1 :: rest =>
    rw [parseFrame_coded, parseCoded] at h
    cases hreg : parseReg (parseState (b0 :: b1 :: rest)).2 <;> rw [hreg] at h <;> cases h

/-! ## The command map loses no field (R81) -/

theorem encode_rdCommand (code : Code) (t : Tail) : encode (rdCommand code t) = some (frame selReceivingData code t) := by
  unfold rdCommand
  split_ifs <;> simp [encode, *]

theorem encode_sdCommand (code : Code) (t : Tail) : encode (sdCommand code t) = some (frame selSendingData code t) := by
  unfold sdCommand
  split_ifs <;> simp [encode, *]

theorem encode_command (sel code : Code) (t : Tail) : encode (command (.full sel code t)) = some (frame sel code t) := by
  simp only [command]
  split_ifs with hrd hsd hidle
  · rw [encode_rdCommand, hrd]
  · rw [encode_sdCommand, hsd]
  · rw [encode, hidle]
  · rfl

theorem wellFormed_rdCommand (l : FrameLayout) (code : Code) (t : Tail) :
    wellFormed l (rdCommand code t) = (l == .coded && codeFits l code t) := by
  unfold rdCommand
  split_ifs with h1 h2 h3 h4 h5 h6 h7
  · subst h1; cases l <;> rfl
  · subst h2; cases l <;> rfl
  · subst h3; cases l <;> rfl
  · subst h4; cases l <;> rfl
  · subst h5; rfl
  · subst h6; cases l <;> rfl
  · subst h7; cases l <;> rfl
  · simp [wellFormed, recognized, *]

theorem sdCommand_noResponse {code : Code} (h : hasResponse.contains code = false) (t : Tail) :
    sdCommand code t = .sdOther code t := by
  simp only [hasResponse, List.contains_eq_mem, List.mem_cons, List.not_mem_nil, or_false, not_or, decide_eq_false_iff_not] at h
  obtain ⟨hread, hhm, hocm1, hocm2⟩ := h
  simp only [sdCommand, if_neg, hread, hhm, hocm1, hocm2, not_false_eq_true]

theorem wellFormed_sdCommand (l : FrameLayout) (code : Code) (t : Tail) :
    wellFormed l (sdCommand code t) = codeFits l code t := by
  unfold sdCommand
  split_ifs with h1 h2 h3 h4
  · subst h1; cases l <;> rfl
  · subst h2; rfl
  · subst h3; cases l <;> rfl
  · subst h4; cases l <;> rfl
  · simp [wellFormed, hasResponse, *]

theorem selFits_iff {l : FrameLayout} {sel code : Code} (hsd : sel ≠ selSendingData) (hidle : sel ≠ selIdle) :
    selFits l sel code = true ↔ ∃ b, sel = zext16 b ∧ ¬ (l = .coded ∧ b = 0xF3#8 ∧ code = 0x002D#16) := by
  have hF3 : ∀ b : Byte, zext16 b = 0x00F3#16 ↔ b = 0xF3#8 := fun b => zext16_inj (b := 0xF3#8)
  constructor
  · intro h
    simp only [selFits, Bool.and_eq_true, Bool.not_eq_true', ← Bool.not_eq_true, beq_iff_eq, bne_iff_ne] at h
    obtain ⟨⟨⟨hbyte, -⟩, -⟩, hnotF32D⟩ := h
    obtain ⟨b, rfl⟩ := exists_zext16 hbyte
    exact ⟨b, rfl, by simpa [hF3, and_assoc] using hnotF32D⟩
  · rintro ⟨b, rfl, hnotF32D⟩
    simp only [selFits, Bool.and_eq_true, Bool.not_eq_true', ← Bool.not_eq_true, beq_iff_eq, bne_iff_ne, zext16_ule, true_and]
    exact ⟨⟨hidle, hsd⟩, by simpa [hF3, and_assoc] using hnotF32D⟩

theorem fieldsFit_receivingData_iff {l : FrameLayout} {code : Code} {t : Tail} :
    FieldsFit l selReceivingData code t ↔ l = .coded ∧ codeFits l code t = true := by
  refine ⟨fun ⟨hselect, hcode⟩ => ⟨?_, hcode⟩, fun ⟨hl, hcode⟩ => ⟨.inl ⟨rfl, hl⟩, hcode⟩⟩
  obtain ⟨-, hl⟩ | ⟨b, hb, -⟩ := hselect
  · exact hl
  · exact absurd hb.symm (zext16_ne_selReceivingData b)

theorem fieldsFit_iff_of_ne_receivingData {l : FrameLayout} {sel code : Code} {t : Tail} (h : sel ≠ selReceivingData) :
    FieldsFit l sel code t ↔
      (∃ b, sel = zext16 b ∧ ¬ (l = .coded ∧ b = 0xF3#8 ∧ code = 0x002D#16)) ∧ codeFits l code t = true :=
  ⟨fun ⟨hselect, hcode⟩ => ⟨hselect.resolve_left fun hrd => h hrd.1, hcode⟩,
    fun ⟨hbyte, hcode⟩ => ⟨.inr hbyte, hcode⟩⟩

theorem wellFormed_command_iff {l : FrameLayout} {sel code : Code} {t : Tail} :
    wellFormed l (command (.full sel code t)) = true ↔ FieldsFit l sel code t := by
  by_cases hrd : sel = selReceivingData
  · subst hrd
    rw [command_receivingData, wellFormed_rdCommand, fieldsFit_receivingData_iff, Bool.and_eq_true, beq_iff_eq]
  rw [fieldsFit_iff_of_ne_receivingData hrd]
  by_cases hsd : sel = selSendingData
  · subst hsd
    change wellFormed l (sdCommand code t) = true ↔ _
    rw [wellFormed_sdCommand]
    exact ⟨fun hcode => ⟨⟨0xFC#8, rfl, by simp⟩, hcode⟩, And.right⟩
  by_cases hidle : sel = selIdle
  · subst hidle
    exact ⟨fun hcode => ⟨⟨0x00#8, rfl, by simp⟩, hcode⟩, And.right⟩
  · rw [command_unrecognized hrd hsd hidle, ← selFits_iff hsd hidle, wellFormed, Bool.and_eq_true]

/-- Every well-formed instruction with a frame is the command of some fields (R81). -/
theorem exists_command {l : FrameLayout} {i : Instr} {b : List Byte} (hwf : wellFormed l i = true) (hencode : encode i = some b) :
    ∃ f, i = command f := by
  cases i with
  | short b => exact ⟨.short b, rfl⟩
  | rdSoftreset t => exact ⟨.full selReceivingData codeSoftReset t, rfl⟩
  | rdUserwrite t => exact ⟨.full selReceivingData codeUserWrite t, rfl⟩
  | rdUserread t => exact ⟨.full selReceivingData codeUserRead t, rfl⟩
  | rdMeasPoll t => exact ⟨.full selReceivingData codeTempHumPoll t, rfl⟩
  | rdMeasHm t => exact ⟨.full selReceivingData codeTempHumHM t, rfl⟩
  | rdOcm1 t => exact ⟨.full selReceivingData codeOnChipMemory1 t, rfl⟩
  | rdOcm2 t => exact ⟨.full selReceivingData codeOnChipMemory2 t, rfl⟩
  | rdOther code t =>
    cases code with
    | none =>
      simp only [wellFormed, Bool.and_eq_true, beq_iff_eq] at hwf
      obtain ⟨-, rfl⟩ := hwf
      exact ⟨.noRegister selReceivingData, rfl⟩
    | some code =>
      simp only [wellFormed, Bool.and_eq_true, Bool.not_eq_true'] at hwf
      exact ⟨.full selReceivingData code t, (rdCommand_unrecognized hwf.2 t).symm⟩
  | sdUserread t => exact ⟨.full selSendingData codeUserRead t, rfl⟩
  | sdMeasHm t => exact ⟨.full selSendingData codeTempHumHM t, rfl⟩
  | sdOcm1 t => exact ⟨.full selSendingData codeOnChipMemory1 t, rfl⟩
  | sdOcm2 t => exact ⟨.full selSendingData codeOnChipMemory2 t, rfl⟩
  | sdOther code t =>
    simp only [wellFormed, Bool.and_eq_true, Bool.not_eq_true'] at hwf
    exact ⟨.full selSendingData code t, (sdCommand_noResponse hwf.2 t).symm⟩
  | idleAny code t => exact ⟨.full selIdle code t, rfl⟩
  | unkAny sel code t =>
    simp only [wellFormed, selFits, Bool.and_eq_true, bne_iff_ne] at hwf
    obtain ⟨⟨⟨⟨hbyte, hidle⟩, hsd⟩, -⟩, -⟩ := hwf
    obtain ⟨b0, rfl⟩ := exists_zext16 hbyte
    exact ⟨.full (zext16 b0) code t, (command_unrecognized (zext16_ne_selReceivingData b0) hsd hidle code t).symm⟩
  | write b | read count | reset | setMeanHumidity v | getMeanHumidity => cases hencode

/-! ## The two round trips -/

/-- Settles O4: such an instruction is the command of its fields (`exists_command`), whose frame parses back to them
(`parseFrame_frame`). -/
theorem decodeOfEncode : Obligations.DecodeOfEncode := by
  intro l i b hwf hencode
  obtain ⟨f, rfl⟩ := exists_command hwf hencode
  cases f with
  | short b? => cases b? <;> cases hencode <;> rfl
  | noRegister sel =>
    obtain rfl : l = .coded := by simpa [command, wellFormed] using hwf
    cases hencode
    rfl
  | full sel code t =>
    obtain rfl : frame sel code t = b := Option.some.inj ((encode_command sel code t).symm.trans hencode)
    exact congrArg command (parseFrame_frame (wellFormed_command_iff.mp hwf))

/-- Settles O5, by what the frame parses to: fields that fit the layout and spell the frame (`fieldsFit_of_parseFrame`), none at all
(`short_of_parseFrame`), or a state-select alone (`noRegister_of_parseFrame`). -/
theorem encodeOfDecode : Obligations.EncodeOfDecode := by
  intro l b
  rw [decode]
  cases hparse : parseFrame l b with
  | short b? =>
    obtain rfl := short_of_parseFrame hparse
    cases b? <;> exact ⟨rfl, rfl⟩
  | noRegister sel =>
    obtain ⟨rfl, rfl⟩ := noRegister_of_parseFrame hparse
    exact ⟨rfl, rfl⟩
  | full sel code t =>
    obtain ⟨hfit, rfl⟩ := fieldsFit_of_parseFrame hparse
    exact ⟨wellFormed_command_iff.mpr hfit, encode_command sel code t⟩

end Sys2Proof
end

section
/-! PROOFS. What each operation does, in one table: the state it ends in, field by field (spec/40_bus_operations.md,
spec/41_command_decoder.md). Every later proof about `exec` reads this table and no definition of a handler. -/

namespace Sys2Proof.Machine

/-! ## The table -/

/-- The registers after a write has selected the phase `ph` and latched its fields (R120, R121). -/
def latchedRegs (ph : Phase) (code : Option Code) (t : Tail) (r : Registers) : Registers :=
  { r with
    state := ph
    registerAddress := code.getD r.registerAddress
    registerData := t.data?.getD r.registerData }

/-- The registers after a read-setup of `code` whose payload is `p` (R136). -/
def answeredRegs (code : Code) (t : Tail) (p : List Byte) (r : Registers) : Registers :=
  { latchedRegs .sendingData (some code) t r with pendingResponse := buildResponse (frame selSendingData code t) p }

/-- The registers after a command of `code` that measures (R125, R150). -/
def measuredRegs (code : Code) (t : Tail) (s : State) : Registers :=
  { latchedRegs .idle (some code) t s.regs with
    lastTemperatureCode := measuredTemperature s
    lastHumidityCode := measuredHumidity s }

/-- The registers after `i`; a raw `WRITE` is to be resolved first (R101). -/
def nextRegs (i : Instr) (s : State) : Registers :=
  match i with
  | .short _ | .write _ | .read _ | .getMeanHumidity => s.regs
  | .rdSoftreset _ | .reset => Registers.reset s.params
  | .setMeanHumidity v => { s.regs with meanHumidity := v }
  | .rdUserwrite t =>
    { latchedRegs .idle (some codeUserWrite) t s.regs with userRegister := t.data?.getD s.regs.registerData }
  | .rdUserread t => latchedRegs .idle (some codeUserRead) t s.regs
  | .rdMeasPoll t =>
    { measuredRegs codeTempHumPoll t s with
      pendingResponse :=
        buildResponse (frame selReceivingData codeTempHumPoll t) (frame6 (measuredTemperature s) (measuredHumidity s)) }
  | .rdMeasHm t => measuredRegs codeTempHumHM t s
  | .rdOcm1 t => latchedRegs .idle (some codeOnChipMemory1) t s.regs
  | .rdOcm2 t => latchedRegs .idle (some codeOnChipMemory2) t s.regs
  | .rdOther code t => latchedRegs .idle code t s.regs
  | .sdUserread t => answeredRegs codeUserRead t [s.regs.userRegister] s.regs
  | .sdMeasHm t => answeredRegs codeTempHumHM t (frame6 s.regs.lastTemperatureCode s.regs.lastHumidityCode) s.regs
  | .sdOcm1 t => answeredRegs codeOnChipMemory1 t (zeros 9) s.regs
  | .sdOcm2 t => answeredRegs codeOnChipMemory2 t (zeros 7) s.regs
  | .sdOther code t => answeredRegs code t s.params.defaultPayload s.regs
  | .idleAny code t | .unkAny _ code t => latchedRegs .idle (some code) t s.regs

/-- The random source after `i`: four draws for a measurement, none otherwise (R165). -/
def nextRng (i : Instr) (s : State) : RngPort :=
  if i.kind = .measuring then ⟨s.rng.script.drop 4, s.rng.drawn + 4⟩ else s.rng

/-- What `i` returns to its caller (R5). -/
def returned (i : Instr) (s : State) : OpResult :=
  match i with
  | .read _ => .bytes s.regs.pendingResponse
  | .getMeanHumidity => .real s.regs.meanHumidity
  | _ => .none

/-- The anomaly of a read-setup without a response of its own (R135, R204). -/
def sdOtherAnomaly (code : Code) : DiagEvent :=
  if code = codeSoftReset ∨ code = codeUserWrite ∨ code = codeTempHumPoll then .none else .unknownCode (some code)

/-- The anomaly of `i`, or `.none` (R201 to R204); a measurement has none, since no code saturates (R163). -/
def anomalyOf : Instr → DiagEvent
  | .short b => .shortWrite (shortLength b)
  | .rdOther code _ => .unknownCode code
  | .sdOther code _ => sdOtherAnomaly code
  | .unkAny sel _ _ => .unknownState sel
  | _ => .none

/-- The state in which `i` ends; a raw `WRITE` is to be resolved first. -/
def afterOp (i : Instr) (s : State) : State where
  regs     := nextRegs i s
  params   := s.params
  arrivals := s.arrivals
  rng      := nextRng i s
  result   := returned i s
  diag     := diagAfter s (anomalyOf i)

@[simp] theorem afterOp_regs (i : Instr) (s : State) : (afterOp i s).regs = nextRegs i s := rfl
@[simp] theorem afterOp_params (i : Instr) (s : State) : (afterOp i s).params = s.params := rfl
@[simp] theorem afterOp_arrivals (i : Instr) (s : State) : (afterOp i s).arrivals = s.arrivals := rfl
@[simp] theorem afterOp_rng (i : Instr) (s : State) : (afterOp i s).rng = nextRng i s := rfl
@[simp] theorem afterOp_result (i : Instr) (s : State) : (afterOp i s).result = returned i s := rfl
@[simp] theorem afterOp_diag (i : Instr) (s : State) : (afterOp i s).diag = diagAfter s (anomalyOf i) := rfl

/-! ## The table is `exec` -/

theorem EndsQuietly.setUser {s u : State} {e : DiagEvent} (h : EndsQuietly s e u) (v : Byte) : EndsQuietly s e (setUser v u) :=
  ⟨h.kept.trans ⟨rfl, rfl, rfl⟩, h.result, h.diag⟩

theorem EndsQuietly.resetState {s u : State} {e : DiagEvent} (h : EndsQuietly s e u) : EndsQuietly s e (resetState u) :=
  ⟨h.kept.trans (resetState_kept u), h.result, h.diag⟩

theorem EndsQuietly.raiseIfUnrecognized {s u : State} (h : EndsQuietly s .none u) (code : Code) :
    EndsQuietly s (sdOtherAnomaly code) (raiseIfUnrecognized code u) := by
  unfold Machine.raiseIfUnrecognized sdOtherAnomaly
  split_ifs
  · exact h
  · exact h.raiseAnomaly _

theorem eq_afterOp {i : Instr} {s u : State} (hregs : u.regs = nextRegs i s) (hparams : u.params = s.params)
    (harrivals : u.arrivals = s.arrivals) (hrng : u.rng = nextRng i s) (hresult : u.result = returned i s)
    (hdiag : u.diag = diagAfter s (anomalyOf i)) : u = afterOp i s := by
  obtain ⟨regs, params, arrivals, rng, result, diag⟩ := u
  exact (State.mk.injEq ..).mpr ⟨hregs, hparams, harrivals, hrng, hresult, hdiag⟩

theorem exec_eq_of_endsQuietly {i : Instr} {s u : State} (hexec : exec i s = .next u) (hregs : u.regs = nextRegs i s)
    (hquiet : EndsQuietly s (anomalyOf i) u) (hrng : nextRng i s = s.rng) (hreturned : returned i s = .none) :
    exec i s = .next (afterOp i s) := by
  obtain ⟨⟨hparams, harrivals, hkept⟩, hresult, hdiag⟩ := hquiet
  exact hexec.trans (congrArg _
    (eq_afterOp hregs hparams harrivals (hkept.trans hrng.symm) (hresult.trans hreturned.symm) hdiag))

theorem exec_eq_of_drawn {i : Instr} {s u : State} (hexec : exec i s = .next u) (hregs : u.regs = nextRegs i s)
    (hdrawn : FourDrawn s u) (hresult : u.result = returned i s) (hdiag : u.diag = diagAfter s (anomalyOf i))
    (hkind : i.kind = .measuring) : exec i s = .next (afterOp i s) :=
  hexec.trans (congrArg _
    (eq_afterOp hregs hdrawn.params hdrawn.arrivals (hdrawn.rng.trans (if_pos hkind).symm) hresult hdiag))

theorem exec_eq_afterOp (i : Instr) (s : State) (hwrite : ∀ b, i ≠ .write b) : exec i s = .next (afterOp i s) := by
  have hbegin := fun ph code t => beginWrite_endsQuietly ph code t s
  cases i with
  | short b =>
    have hquiet : EndsQuietly s .none (beginOp s) := ⟨beginOp_kept s, beginOp_result s, beginOp_diagAfter s⟩
    exact exec_eq_of_endsQuietly rfl rfl (hquiet.raiseAnomaly _) rfl rfl
  | rdSoftreset t =>
    refine exec_eq_of_endsQuietly rfl ?_ ((hbegin .receivingData _ t).resetState.setPhase .idle) rfl rfl
    rw [setPhase_regs, resetState_regs, (beginWrite_kept _ _ _ _).params]
    rfl
  | rdUserwrite t =>
    refine exec_eq_of_endsQuietly rfl ?_ (((hbegin .receivingData _ t).setUser _).setPhase .idle) rfl rfl
    rw [setPhase_regs, setUser_regs, beginWrite_regs]
    rfl
  | rdUserread t | rdOcm1 t | rdOcm2 t =>
    refine exec_eq_of_endsQuietly rfl ?_ ((hbegin .receivingData _ t).setPhase .idle) rfl rfl
    rw [setPhase_regs, beginWrite_regs]
    rfl
  | rdMeasPoll t =>
    obtain ⟨u, hexec, hregs, hdrawn, hresult, hdiag⟩ := rdMeasPoll_frame t s
    exact exec_eq_of_drawn hexec hregs hdrawn hresult hdiag rfl
  | rdMeasHm t =>
    obtain ⟨hparams, harrivals, hrng⟩ := performMeasure_beginWrite_drawn .receivingData (some codeTempHumHM) t s
    refine exec_eq_of_drawn rfl ?_ ⟨hparams, harrivals, hrng⟩ ((performMeasure_result _).trans (beginWrite_result ..))
      ((performMeasure_diag _).trans (beginWrite_diag ..)) rfl
    rw [setPhase_regs, performMeasure_beginWrite_regs]
    rfl
  | rdOther code t =>
    refine exec_eq_of_endsQuietly rfl ?_ (((hbegin .receivingData code t).raiseAnomaly _).setPhase .idle) rfl rfl
    rw [setPhase_regs, raiseAnomaly_regs, beginWrite_regs]
    rfl
  | sdUserread t | sdMeasHm t | sdOcm1 t | sdOcm2 t =>
    refine exec_eq_of_endsQuietly rfl ?_ ((hbegin .sendingData _ t).respond _ _) rfl rfl
    rw [respond_regs, beginWrite_regs]
    rfl
  | sdOther code t =>
    refine exec_eq_of_endsQuietly rfl ?_ (((hbegin .sendingData _ t).raiseIfUnrecognized code).respond _ _) rfl rfl
    rw [respond_regs, raiseIfUnrecognized_regs, (raiseIfUnrecognized_kept _ _).params, (beginWrite_kept _ _ _ _).params,
      beginWrite_regs]
    rfl
  | idleAny code t =>
    refine exec_eq_of_endsQuietly rfl ?_ ((hbegin .idle _ t).setPhase .idle) rfl rfl
    rw [setPhase_regs, beginWrite_regs]
    rfl
  | unkAny sel code t =>
    refine exec_eq_of_endsQuietly rfl ?_ (((hbegin .idle _ t).raiseAnomaly _).setPhase .idle) rfl rfl
    rw [setPhase_regs, raiseAnomaly_regs, beginWrite_regs]
    rfl
  | write b => exact absurd rfl (hwrite b)
  | read count => exact exec_read count s
  | reset | setMeanHumidity v | getMeanHumidity => rfl

/-- Every instruction from every state ends as the table says, a raw `WRITE` as its command does (R81, R200). -/
theorem exec_eq (i : Instr) (s : State) : exec i s = .next (afterOp (resolved s.params.frameLayout i) s) := by
  rw [exec_resolved, exec_eq_afterOp _ s (resolved_ne_write _ i)]

end Sys2Proof.Machine
end

section
/-! PROOFS. The obligations that the table of `afterOp` answers: which operation changes what (spec/40_bus_operations.md,
spec/41_command_decoder.md, spec/43_crc_and_frame.md, spec/60_exceptions.md, spec/70_reset_and_hazards.md). -/

namespace Sys2Proof.Machine

/-! ## A raw write, the configuration, the draws (R34, R101, R165) -/

/-- Settles O7: the command a frame decodes to is resolved already. -/
theorem writeRunsItsCommand : Obligations.WriteRunsItsCommand := fun b s =>
  ⟨_, exec_eq (.write b) s, (exec_write b s).symm.trans (exec_eq (.write b) s)⟩

/-- Settles O54: no row writes the two fields. -/
theorem configurationIsFixed : Obligations.ConfigurationIsFixed := fun i s =>
  ⟨_, exec_eq i s, afterOp_params _ s, afterOp_arrivals _ s⟩

/-- Settles O41: the draws are those of the resolved command's row. -/
theorem drawsPerOperation : Obligations.DrawsPerOperation := fun i s => ⟨_, exec_eq i s, afterOp_rng _ s⟩

/-! ## The port operations (R100, R102, R103) -/

theorem diagAfter_afterOp (i : Instr) (s : State) (e : DiagEvent) : diagAfter (afterOp i s) e = diagAfter s e := by
  cases h : s.params.diag <;> simp [diagAfter, h]

/-- An operation without a draw repeats itself if the registers and the result of the second run are those of the first. -/
theorem exec_again {i : Instr} {s : State} (hwrite : ∀ b, i ≠ .write b) (hregs : nextRegs i (afterOp i s) = nextRegs i s)
    (hrng : nextRng i (afterOp i s) = nextRng i s) (hreturned : returned i (afterOp i s) = returned i s) :
    exec i (afterOp i s) = .next (afterOp i s) := by
  have hdiag := diagAfter_afterOp i s (anomalyOf i)
  rw [exec_eq_afterOp _ _ hwrite, afterOp, hregs, hrng, hreturned, hdiag]
  rfl

/-- Settles O9: the values are those of R35, which do not depend on the registers found, so that a second `RESET` repeats the first. -/
theorem resetWritesEveryRegister : Obligations.ResetWritesEveryRegister := fun s =>
  ⟨_, exec_eq .reset s, rfl, ⟨rfl, rfl, rfl⟩, rfl, rfl, exec_again (by simp) rfl rfl rfl,
    fun count => ⟨_, exec_eq (.read count) _, rfl⟩⟩

/-- Settles O11: the row of `READ` does not look at the count. -/
theorem readReturnsTheWholeBuffer : Obligations.ReadReturnsTheWholeBuffer := fun count s =>
  ⟨_, exec_eq (.read count) s, rfl, rfl, ⟨rfl, rfl, rfl⟩, rfl⟩

/-- Settles O13: the measurement after it reads the mean just stored and the rest of the state as it was. -/
theorem setMeanStoresAnyValue : Obligations.SetMeanStoresAnyValue := fun v s =>
  ⟨_, exec_eq (.setMeanHumidity v) s, rfl, ⟨rfl, rfl, rfl⟩, rfl, rfl, fun t => ⟨_, exec_eq (.rdMeasHm t) _, rfl, rfl⟩,
    ⟨_, exec_eq .reset _, rfl⟩, fun t => ⟨_, exec_eq (.rdSoftreset t) _, rfl⟩⟩

/-! ## The three ways to reset (R122, R230) -/

/-- Settles O10: both resets write `Registers.reset` of the parameters, and power-on is that of the default ones. -/
theorem threeWaysToReset : Obligations.ThreeWaysToReset := by
  intro t s hparams
  have hregs : Registers.reset s.params = State.reset.regs := congrArg Registers.reset hparams
  exact ⟨_, _, exec_eq .reset s, exec_eq (.rdSoftreset t) s, hregs, hregs⟩

/-- Settles O16: the row of RD.SOFTRESET is the row of `RESET`, whatever the tail; in a SendingData write the same code only
answers. -/
theorem softResetIsAFullReset : Obligations.SoftResetIsAFullReset := fun t s =>
  ⟨⟨_, exec_eq (.rdSoftreset t) s, rfl, ⟨rfl, rfl, rfl⟩, rfl, rfl, exec_eq .reset s⟩,
    ⟨_, exec_eq (.sdOther codeSoftReset t) s, rfl, rfl, rfl, rfl⟩⟩

/-! ## Single commands (R123, R125, R132, R135) -/

/-- Settles O17: the row of RD.USERWRITE. -/
theorem userWriteStoresTheDataLatch : Obligations.UserWriteStoresTheDataLatch := fun t s =>
  ⟨_, exec_eq (.rdUserwrite t) s, rfl, ⟨rfl, rfl, rfl⟩, rfl, rfl⟩

/-- Settles O20: the row of RD.MEAS_HM. -/
theorem measureHmWritesTheTwoCodes : Obligations.MeasureHmWritesTheTwoCodes := fun t s =>
  ⟨_, exec_eq (.rdMeasHm t) s, rfl, ⟨rfl, rfl, rfl⟩, rfl, rfl⟩

theorem answeredRegs_again (code : Code) (t : Tail) (p : List Byte) (r : Registers) :
    answeredRegs code t p (answeredRegs code t p r) = answeredRegs code t p r := by
  cases t <;> rfl

/-- Settles O23: the second frame finds the codes as they were and the latches as the first left them. -/
theorem readSetupFramesTheStoredCodes : Obligations.ReadSetupFramesTheStoredCodes := fun t s =>
  ⟨_, exec_eq (.sdMeasHm t) s, rfl, ⟨rfl, rfl, rfl⟩, rfl, rfl, exec_again (by simp) (answeredRegs_again _ t _ _) rfl rfl⟩

/-- Settles O25: the row of SD.OTHER. -/
theorem otherReadSetupsAnswerTheDefault : Obligations.OtherReadSetupsAnswerTheDefault := fun code t s =>
  ⟨_, exec_eq (.sdOther code t) s, rfl, ⟨rfl, rfl, rfl⟩, rfl, rfl⟩

/-! ## The response (R185) -/

/-- Settles O45: an answer is one byte longer than its payload, and no other row but the resets' writes the response. -/
theorem whichOperationsBuildAResponse : Obligations.WhichOperationsBuildAResponse := by
  intro i s
  refine ⟨_, exec_eq i s, ?_⟩
  cases resolved s.params.frameLayout i with
  | rdMeasPoll t | sdUserread t | sdMeasHm t | sdOcm1 t | sdOcm2 t | sdOther code t => exact buildResponse_length _ _
  | short b | read count | reset | setMeanHumidity v | getMeanHumidity | write b => rfl
  | rdSoftreset t | rdUserwrite t | rdUserread t | rdMeasHm t | rdOcm1 t | rdOcm2 t | rdOther code t => rfl
  | idleAny code t | unkAny sel code t => rfl

/-- Settles O48: the read-setup frames the codes, which the UserWrite does not write. -/
theorem resolutionIsFixedAtMeasurement : Obligations.ResolutionIsFixedAtMeasurement := fun dd s =>
  ⟨_, _, _, exec_eq (.rdMeasHm .none) s, exec_eq (.rdUserwrite (.data dd [])) _, exec_eq (.sdMeasHm .none) _, rfl, rfl⟩

/-! ## The mean and the two callers (R211, R240) -/

theorem port_eq_bus_of_kind {i : Instr} (h : i.kind ≠ .port) : i.port = .bus := by
  cases i with
  | reset | setMeanHumidity v | getMeanHumidity => exact absurd rfl h
  | _ => rfl

theorem resolved_port (l : FrameLayout) (i : Instr) : (resolved l i).port = i.port := by
  cases i with
  | write b => exact port_eq_bus_of_kind (decode_kind_ne_port l b)
  | _ => rfl

theorem nextRegs_meanHumidity {i : Instr} (h : i.port = .bus) (s : State) :
    (nextRegs i s).meanHumidity = if i.kind = .softReset then 80 else s.regs.meanHumidity := by
  cases i with
  | reset | setMeanHumidity v | getMeanHumidity => cases h
  | _ => rfl

/-- Settles O53: of the rows that write the mean, `RESET` and `SET_MEAN_HUMIDITY` are the host's. -/
theorem busMasterCannotSetTheMean : Obligations.BusMasterCannotSetTheMean := by
  intro i s hport
  refine ⟨_, exec_eq i s, ?_⟩
  rw [afterOp_regs, nextRegs_meanHumidity ((resolved_port _ i).trans hport)]
  split_ifs <;> rfl

/-! ## The start phase (R140) -/

theorem afterOp_withPhaseAndAddress (i : Instr) (p : Phase) (c : Code) (s : State) :
    withPhaseAndAddress p c (afterOp i (withPhaseAndAddress p c s)) = withPhaseAndAddress p c (afterOp i s) := by
  cases i <;> rfl

theorem nextRegs_state_of_latches {i : Instr} (h : i.latches.isSome) (s s' : State) :
    (nextRegs i s).state = (nextRegs i s').state := by
  cases i with
  | short b | write b | read count | reset | setMeanHumidity v | getMeanHumidity => cases h
  | _ => rfl

theorem resolved_of_latches {i : Instr} (h : i.latches.isSome) (l : FrameLayout) : resolved l i = i := by
  cases i with
  | write b => cases h
  | _ => rfl

/-- Settles O31: a row reads neither of the two registers but to leave it as it is. -/
theorem startPhaseIsNotObserved : Obligations.StartPhaseIsNotObserved := by
  intro i s p c
  refine ⟨_, _, exec_eq i s, exec_eq i _, afterOp_withPhaseAndAddress _ p c s, fun hlatches => ?_⟩
  rw [afterOp_regs, afterOp_regs, resolved_of_latches hlatches, resolved_of_latches hlatches]
  exact nextRegs_state_of_latches hlatches _ s

/-! ## The stale data latch (R237) -/

theorem nextRegs_registerData_of_latches {i : Instr} {code : Option Code} {t : Tail} (hl : i.latches = some (code, t))
    (hk : i.kind ≠ .softReset) (s : State) : (nextRegs i s).registerData = t.data?.getD s.regs.registerData := by
  obtain ⟨u, hexec, hlatched⟩ := exec_latched hl hk s
  have hwrite : ∀ b, i ≠ .write b := by rintro b rfl; cases hl
  cases (exec_eq_afterOp i s hwrite).symm.trans hexec
  exact hlatched.data

theorem nextRegs_registerData_of_keepsData {i : Instr} (h : i.keepsData = true) (s : State) :
    (nextRegs i s).registerData = s.regs.registerData := by
  cases hl : i.latches with
  | some fields =>
    obtain ⟨code, t⟩ := fields
    simp only [Instr.keepsData, hl, Bool.and_eq_true, Option.isNone_iff_eq_none, bne_iff_ne] at h
    rw [nextRegs_registerData_of_latches hl h.2, h.1, Option.getD_none]
  | none =>
    cases i with
    | reset => cases h
    | short b | write b | read count | setMeanHumidity v | getMeanHumidity => rfl
    | _ => cases hl

theorem nextRegs_of_softReset {i : Instr} (h : i.kind = .softReset) (s : State) : nextRegs i s = Registers.reset s.params := by
  cases i with
  | rdSoftreset t => rfl
  | _ => cases h

theorem execAll_keepsData (between : List Instr) (s : State)
    (h : ∀ j ∈ between, (resolved s.params.frameLayout j).keepsData = true) :
    ∃ u, execAll between s = .next u ∧ u.regs.registerData = s.regs.registerData := by
  induction between generalizing s with
  | nil => exact ⟨s, rfl, rfl⟩
  | cons j rest ih =>
    obtain ⟨u, hall, hdata⟩ := ih (afterOp (resolved s.params.frameLayout j) s) fun j' hj' => h j' (List.mem_cons_of_mem j hj')
    rw [afterOp_regs, nextRegs_registerData_of_keepsData (h j List.mem_cons_self)] at hdata
    exact ⟨u, (execAll_cons rest (exec_eq j s)).trans hall, hdata⟩

/-- A UserWrite without a data byte stores what the first of the operations left in the latch. -/
theorem staleUserWrite {i : Instr} {between : List Instr} {s : State} {dd : Byte}
    (hfirst : (nextRegs (resolved s.params.frameLayout i) s).registerData = dd)
    (hbetween : ∀ j ∈ between, (resolved s.params.frameLayout j).keepsData = true) :
    ∃ u v, execAll (i :: between) s = .next u ∧ exec (.rdUserwrite .none) u = .next v ∧ v.regs.userRegister = dd := by
  obtain ⟨u, hall, hdata⟩ := execAll_keepsData between (afterOp (resolved s.params.frameLayout i) s) hbetween
  exact ⟨u, _, (execAll_cons between (exec_eq i s)).trans hall, exec_eq (.rdUserwrite .none) u, hdata.trans hfirst⟩

/-- Settles O49: what stands between keeps the latch (`execAll_keepsData`), which the first write or reset has set. -/
theorem staleDataLatch : Obligations.StaleDataLatch := by
  refine ⟨fun i code dd excess between s hlatches hkind hbetween => ?_, fun i between s hreset hbetween => ?_⟩
  · exact staleUserWrite (nextRegs_registerData_of_latches hlatches hkind s) hbetween
  · refine staleUserWrite ?_ hbetween
    rcases hreset with rfl | hsoft
    · rfl
    · rw [nextRegs_of_softReset hsoft]
      rfl

/-! ## The event of a write (R201 to R207) -/

theorem recognized_contains_iff {code : Code} : recognized.contains code = true ↔
    code = codeSoftReset ∨ code = codeUserWrite ∨ code = codeUserRead ∨ code = codeTempHumHM ∨ code = codeTempHumPoll ∨
      code = codeOnChipMemory1 ∨ code = codeOnChipMemory2 := by
  simp only [recognized, List.contains_eq_mem, List.mem_cons, List.not_mem_nil, or_false, decide_eq_true_eq]

theorem anomalyOf_rdCommand (code : Code) (t : Tail) :
    anomalyOf (rdCommand code t) = if recognized.contains code = false then .unknownCode (some code) else .none := by
  split_ifs with h
  · rw [rdCommand_unrecognized h]
    rfl
  · rw [Bool.not_eq_false, recognized_contains_iff] at h
    rcases h with rfl | rfl | rfl | rfl | rfl | rfl | rfl <;> rfl

theorem anomalyOf_sdCommand (code : Code) (t : Tail) :
    anomalyOf (sdCommand code t) = if recognized.contains code = false then .unknownCode (some code) else .none := by
  split_ifs with h
  · simp only [← Bool.not_eq_true, recognized_contains_iff, not_or] at h
    obtain ⟨hreset, hwrite, hread, hhm, hpoll, hocm1, hocm2⟩ := h
    simp only [sdCommand, if_neg hread, if_neg hhm, if_neg hocm1, if_neg hocm2, anomalyOf, sdOtherAnomaly, hreset, hwrite, hpoll,
      or_self, if_false]
  · rw [Bool.not_eq_false, recognized_contains_iff] at h
    rcases h with rfl | rfl | rfl | rfl | rfl | rfl | rfl <;> rfl

theorem shortLength_eq (b? : Option Byte) : shortLength b? = b?.toList.length := by
  cases b? <;> rfl

/-- Settles O50: with `DIAG` on the event is the anomaly of the command, which the parsed fields select. -/
theorem diagnosticEventOfAWrite : Obligations.DiagnosticEventOfAWrite := by
  intro b s hdiag
  have hevent : ∀ e, diagAfter s e = e := fun e => if_pos hdiag
  refine ⟨_, exec_eq (.write b) s, ?_⟩
  rw [afterOp_diag, hevent]
  change anomalyOf (command (parseFrame s.params.frameLayout b)) = _
  cases hparse : parseFrame s.params.frameLayout b with
  | short b? =>
    rw [short_of_parseFrame hparse, ← shortLength_eq]
    rfl
  | noRegister sel => rfl
  | full sel code t =>
    by_cases hrd : sel = 0xF32D#16
    · subst hrd
      exact (anomalyOf_rdCommand code t).trans (by simp)
    by_cases hsd : sel = 0x00FC#16
    · subst hsd
      exact (anomalyOf_sdCommand code t).trans (by simp)
    by_cases hidle : sel = 0x0000#16
    · subst hidle
      rfl
    · rw [command_unrecognized hrd hsd hidle]
      exact (if_pos ⟨hidle, hrd, hsd⟩).symm

/-! ## What the table reads (R201) -/

theorem nextRegs_congr {s s' : State} (hregs : s'.regs = s.regs)
    (hpayload : s'.params.defaultPayload = s.params.defaultPayload) (hreset : Registers.reset s'.params = Registers.reset s.params)
    (htemp : measuredTemperature s' = measuredTemperature s) (hhum : measuredHumidity s' = measuredHumidity s) (i : Instr) :
    nextRegs i s' = nextRegs i s := by
  cases i <;> simp only [nextRegs, measuredRegs, hregs, hpayload, hreset, htemp, hhum]

theorem returned_congr {s s' : State} (hregs : s'.regs = s.regs) (i : Instr) : returned i s' = returned i s := by
  cases i <;> simp only [returned, hregs]

/-- Settles O52: no row reads `DIAG`, and with it off the event stays as it was. -/
theorem diagOffChangesNothingElse : Obligations.DiagOffChangesNothingElse := fun i s =>
  ⟨_, _, exec_eq i s, exec_eq i _, nextRegs_congr rfl rfl rfl rfl rfl _, rfl, rfl, returned_congr rfl _, rfl⟩

end Sys2Proof.Machine
end

section
/-! PROOFS. The obligations about the step (spec/20_memory.md section 4, spec/00_scope.md section 5): what it refuses, what it runs. -/

namespace Sys2Proof.Machine

/-! ## Which arrivals are operations (R8, R61) -/

theorem accepted_one {p : Params} {op : PortOp} (h : ∀ b, op = .write b → deliverable p b = true) :
    accepted p (.one op) = .ok op := by
  cases op with
  | write b => exact if_pos (h b rfl)
  | read count | reset | setMeanHumidity v | getMeanHumidity => rfl

theorem accepted_undeliverable {p : Params} {b : List Byte} (h : deliverable p b = false) :
    accepted p (.one (.write b)) = .error (.undeliverableWrite b.length) :=
  if_neg (by rw [h]; decide)

theorem deliverable_eq_false_iff {p : Params} {b : List Byte} :
    deliverable p b = false ↔ ∃ m, p.maxWriteLen = some m ∧ m < b.length := by
  unfold deliverable
  cases p.maxWriteLen with
  | none => simp
  | some m => simp

/-- The port operations that are no write, and the writes that may be delivered, are accepted; the rest is refused by name. -/
theorem accepted_cases (p : Params) (a : Arrival) :
    (∃ op, a = .one op ∧ accepted p a = .ok op) ∨
    (∃ first second, a = .overlapping first second ∧ accepted p a = .error .concurrentInvocation) ∨
    (∃ b, a = .one (.write b) ∧ deliverable p b = false ∧ accepted p a = .error (.undeliverableWrite b.length)) := by
  cases a with
  | overlapping first second => exact .inr (.inl ⟨first, second, rfl, rfl⟩)
  | one op =>
    by_cases hok : ∀ b, op = .write b → deliverable p b = true
    · exact .inl ⟨op, rfl, accepted_one hok⟩
    · push Not at hok
      obtain ⟨b, rfl, hlong⟩ := hok
      have hlong := Bool.eq_false_of_not_eq_true hlong
      exact .inr (.inr ⟨b, rfl, hlong, accepted_undeliverable hlong⟩)

/-! ## The step -/

theorem step_idle {s : State} (h : s.arrivals = []) : step s = .next s := by
  simp only [step, h]

theorem step_accepted {s : State} {a : Arrival} {op : PortOp} {rest : List Arrival} (harrives : s.arrivals = a :: rest)
    (haccepted : accepted s.params a = .ok op) :
    step s = exec (instrOf s.params.frameLayout op) { s with arrivals := rest } := by
  simp only [step, harrives, haccepted, popArrival, List.tail_cons]

theorem step_refused {s : State} {a : Arrival} {r : Refusal} {rest : List Arrival} (harrives : s.arrivals = a :: rest)
    (hrefused : accepted s.params a = .error r) : step s = .refused r := by
  simp only [step, harrives, hrefused]

/-- What a step can do, once for all: nothing with no arrival, one operation to its end, or a refusal. -/
theorem step_cases (s : State) :
    (s.arrivals = [] ∧ step s = .next s) ∨
    (∃ op rest, s.arrivals = .one op :: rest ∧
      step s = .next (afterOp (instrOf s.params.frameLayout op) { s with arrivals := rest })) ∨
    (∃ first second rest, s.arrivals = .overlapping first second :: rest ∧ step s = .refused .concurrentInvocation) ∨
    (∃ b rest, s.arrivals = .one (.write b) :: rest ∧ deliverable s.params b = false ∧
      step s = .refused (.undeliverableWrite b.length)) := by
  cases harrives : s.arrivals with
  | nil => exact .inl ⟨rfl, step_idle harrives⟩
  | cons a rest =>
    rcases accepted_cases s.params a with ⟨op, rfl, hok⟩ | ⟨first, second, rfl, herror⟩ | ⟨b, rfl, hlong, herror⟩
    · refine .inr (.inl ⟨op, rest, rfl, (step_accepted harrives hok).trans (exec_eq_afterOp _ _ ?_)⟩)
      cases op with
      | write b => exact fun b' h => decode_kind_ne_port _ b (congrArg Instr.kind h)
      | read count | reset | setMeanHumidity v | getMeanHumidity => simp [instrOf]
    · exact .inr (.inr (.inl ⟨first, second, rest, rfl, step_refused harrives herror⟩))
    · exact .inr (.inr (.inr ⟨b, rest, rfl, hlong, step_refused harrives herror⟩))

/-- A completed step is an idle one, or one operation at the front of the ports. -/
theorem step_next {s u : State} (h : step s = .next u) :
    u = s ∨ ∃ op rest, u = afterOp (instrOf s.params.frameLayout op) { s with arrivals := rest } := by
  rcases step_cases s with ⟨-, hstep⟩ | ⟨op, rest, -, hstep⟩ | ⟨_, _, _, -, hstep⟩ | ⟨_, _, -, -, hstep⟩ <;>
    cases hstep.symm.trans h
  · exact .inl rfl
  · exact .inr ⟨op, rest, rfl⟩

/-- Settles O1: each of these arrivals is accepted as the operation it is. -/
theorem stepRunsTheArrivingOperation : Obligations.StepRunsTheArrivingOperation :=
  ⟨fun _ _ _ harrives hdeliverable => step_accepted harrives (if_pos hdeliverable), fun _ _ _ harrives => step_accepted harrives rfl,
    fun _ _ harrives => step_accepted harrives rfl, fun _ _ _ harrives => step_accepted harrives rfl,
    fun _ _ harrives => step_accepted harrives rfl⟩

/-- Settles O2: the last clause is `step_cases`, whose first two cases end in a next state. -/
theorem stepRefusesOnlyWhatIsNoOperation : Obligations.StepRefusesOnlyWhatIsNoOperation := by
  refine ⟨fun s a b rest harrives => step_refused harrives rfl, fun s b rest m harrives hbound hlong => ?_, fun s => step_idle,
    fun s r hrefused => ?_⟩
  · exact step_refused harrives (accepted_undeliverable (deliverable_eq_false_iff.mpr ⟨m, hbound, hlong⟩))
  · rcases step_cases s with ⟨-, hstep⟩ | ⟨_, _, -, hstep⟩ | ⟨a, b, rest, harrives, hstep⟩ |
        ⟨b, rest, harrives, hlong, hstep⟩ <;>
      cases hstep.symm.trans hrefused
    · exact .inl ⟨a, b, rest, harrives, rfl⟩
    · obtain ⟨m, hbound, hlong⟩ := deliverable_eq_false_iff.mp hlong
      exact .inr ⟨b, rest, m, harrives, hbound, hlong, rfl⟩

/-- Settles O8: `exec` ends as its table says, and a delivered operation is accepted. -/
theorem everyOperationHasAStep : Obligations.EveryOperationHasAStep :=
  ⟨fun i s => ⟨_, exec_eq i s⟩,
    fun _ _ _ harrives hdeliverable => ⟨_, (step_accepted harrives (accepted_one hdeliverable)).trans (exec_eq _ _)⟩,
    fun _ _ _ _ harrives => step_refused harrives rfl⟩

/-- Settles O58: the frame presented is taken off the ports again. -/
theorem fetchWordRunsNext : Obligations.FetchWordRunsNext := fun s nbits w hdeliverable =>
  step_accepted (presentWrite_arrivals (tableFrame nbits w) s) (if_pos hdeliverable)

/-- Settles O3, by evaluating the decoder on the 32 frames. -/
theorem vectorFramesDecode : Obligations.VectorFramesDecode := by
  unfold Obligations.VectorFramesDecode
  decide

end Sys2Proof.Machine
end

section
/-! PROOFS. What every step keeps (spec/10_state.md, spec/30_encoding.md section 1): the machine that never measures under POSITIONAL
(R77), and the invariant (R21, R26 to R28, R161, R163). -/

namespace Sys2Proof.Machine

/-! ## What a row writes to the user register and to the codes -/

/-- Only the commands of the ReceivingData phase (R122 to R129) and `RESET` write the user register or the codes. -/
theorem nextRegs_keeps_measurements {i : Instr} (hrec : i.kind ≠ .receiving) (hmeas : i.kind ≠ .measuring)
    (hsoft : i.kind ≠ .softReset) (hreset : i ≠ .reset) (s : State) :
    (nextRegs i s).userRegister = s.regs.userRegister ∧ (nextRegs i s).lastTemperatureCode = s.regs.lastTemperatureCode ∧
      (nextRegs i s).lastHumidityCode = s.regs.lastHumidityCode := by
  cases i with
  | rdSoftreset t => exact absurd rfl hsoft
  | rdMeasPoll t | rdMeasHm t => exact absurd rfl hmeas
  | rdUserwrite t | rdUserread t | rdOcm1 t | rdOcm2 t | rdOther code t => exact absurd rfl hrec
  | reset => exact absurd rfl hreset
  | _ => exact ⟨rfl, rfl, rfl⟩

theorem instrOf_positional_kind (op : PortOp) : (instrOf .positional op).kind ≠ .receiving ∧
    (instrOf .positional op).kind ≠ .measuring ∧ (instrOf .positional op).kind ≠ .softReset := by
  cases op with
  | write b =>
    change (decode .positional b).kind ≠ _ ∧ (decode .positional b).kind ≠ _ ∧ (decode .positional b).kind ≠ _
    rcases decode_positional_kind b with hk | hk | hk <;> simp [hk]
  | read count | reset | setMeanHumidity v | getMeanHumidity => simp [instrOf, Instr.kind]

/-- Settles O55: no operation is a ReceivingData command, so only a `RESET` writes the registers named, and it writes these values. -/
theorem positionalNeverMeasures : Obligations.PositionalNeverMeasures := by
  refine ⟨fun b => instrOf_positional_kind (.write b), fun s u hlayout huser htemp hhum hstep => ?_⟩
  rcases step_next hstep with rfl | ⟨op, rest, rfl⟩
  · exact ⟨hlayout, huser, htemp, hhum, rfl⟩
  · rw [hlayout]
    obtain ⟨hrec, hmeas, hsoft⟩ := instrOf_positional_kind op
    refine ⟨hlayout, ?_⟩
    have hrng : nextRng (instrOf .positional op) { s with arrivals := rest } = s.rng := if_neg hmeas
    rw [afterOp_regs, afterOp_rng, hrng]
    by_cases hreset : instrOf .positional op = .reset
    · rw [hreset]
      exact ⟨rfl, rfl, rfl, rfl⟩
    · obtain ⟨huser', htemp', hhum'⟩ := nextRegs_keeps_measurements hrec hmeas hsoft hreset { s with arrivals := rest }
      exact ⟨huser'.trans huser, htemp'.trans htemp, hhum'.trans hhum, rfl⟩

end Sys2Proof.Machine
end

section
/-! PROOFS. The measurement synthesizer's obligations (spec/42_measurement_synthesizer.md sections 3 to 5): the ranges and
the 16-bit codes. -/

namespace Sys2Proof.Machine

/-! ## The ranges (R153 to R155, R163) -/

/-- Settles O33: the temperature is within 12.5 degrees of 25 (`temperatureOf_bounds`). -/
theorem temperatureCodeRange : Obligations.TemperatureCodeRange := fun ties k u => roundReal_temperature_bounds ties k u

theorem clamp_below {v lo hi : REAL} (h : v < lo) : clamp v lo hi = lo := if_pos h

theorem clamp_above {v lo hi : REAL} (hlo : lo ≤ v) (hhi : hi < v) : clamp v lo hi = hi :=
  (if_neg hlo.not_gt).trans (if_pos hhi)

theorem clamp_within {v lo hi : REAL} (hlo : lo ≤ v) (hhi : v ≤ hi) : clamp v lo hi = v :=
  (if_neg hlo.not_gt).trans (if_neg hhi.not_gt)

/-- At the humidity's sigma a sample deviates from its mean by less than a tenth. -/
theorem sample_humidity (mean : REAL) (k : Fin 10) (u : UnitReal) :
    ∃ d : REAL, sample mean humiditySigma k u = mean * (1 + d) ∧ -0.1 < d ∧ d < 0.1 := by
  obtain ⟨d, hsample, hlo, hhi⟩ := sample_deviation mean (sigma := humiditySigma) (by norm_num [humiditySigma]) k u
  norm_num [humiditySigma] at hlo hhi
  exact ⟨d, hsample, by norm_num; exact hlo, by norm_num; exact hhi⟩

/-- Settles O34: the ranges are those of a clamped value; the three examples sample above, below and within the clamp. -/
theorem humidityClampAndCodeRange : Obligations.HumidityClampAndCodeRange := by
  refine ⟨fun ties mean k u => ?_, fun k u => ⟨?_, ?_, ?_⟩⟩
  · obtain ⟨hlo, hhi⟩ := humidityOf_bounds mean k u
    exact ⟨hlo, hhi, roundReal_humidity_bounds ties mean k u⟩
  · obtain ⟨d, hsample, hlo, -⟩ := sample_humidity 150 k u
    exact clamp_above (by linarith) (by linarith)
  · obtain ⟨d, hsample, hlo, -⟩ := sample_humidity (-10) k u
    exact clamp_below (by linarith)
  · obtain ⟨d, hsample, hlo, hhi⟩ := sample_humidity 80 k u
    exact clamp_within (by linarith) (by linarith)

/-! ## The 16-bit code (R156, R164) -/

theorem code16_toNat (n : Int) : ((code16 n).toNat : Int) = sat16 n := by
  have hrange : 0 ≤ sat16 n ∧ sat16 n ≤ 65535 := by
    unfold sat16
    split_ifs <;> omega
  rw [code16, BitVec.toNat_ofInt]
  omega

theorem code16_below {n : Int} (h : n < 0) : code16 n = 0x0000#16 := by
  rw [code16, sat16, if_pos h]
  rfl

theorem code16_above {n : Int} (h : 65535 < n) : code16 n = 0xFFFF#16 := by
  rw [code16, sat16, if_neg (by omega), if_pos h]
  rfl

theorem abs_add_codeError_sub (n : Int) (kind : RealKind) (e : Fin 3) : |n + codeError kind e - n| ≤ 1 := by
  rw [add_sub_cancel_left]
  exact abs_le.mpr (codeError_bounds kind e)

/-- Settles O35: the error is 0 under the exact REAL and in -1, 0, 1 otherwise. -/
theorem codesAreExactOrWithinOne : Obligations.CodesAreExactOrWithinOne := by
  refine ⟨fun n => code16_below, fun n hlo hhi => (code16_toNat n).trans (sat16_eq_self hlo hhi), fun n => code16_above,
    fun p t h hexact => ?_, fun p t h => ⟨abs_add_codeError_sub _ _ _, abs_add_codeError_sub _ _ _⟩⟩
  simp only [temperatureRounded, humidityRounded, hexact, codeError, add_zero, and_self]

/-- No temperature code saturates, so it is the rounded value itself. -/
theorem tempCode16_toNat (p : Params) (k : Fin 10) (u : UnitReal) :
    ((tempCode16 p (temperatureOf k u)).toNat : Int) =
      roundReal p.roundTies (temperatureScaled (temperatureOf k u)) + codeError p.real (Config.tempCodeError (temperatureOf k u)) :=
  (code16_toNat _).trans (sat16_temperature p k u)

theorem humCode16_toNat (p : Params) (mean : REAL) (k : Fin 10) (u : UnitReal) :
    ((humCode16 p (humidityOf mean k u)).toNat : Int) =
      roundReal p.roundTies (humidityScaled (humidityOf mean k u)) + codeError p.real (Config.humCodeError (humidityOf mean k u)) :=
  (code16_toNat _).trans (sat16_humidity p mean k u)

end Sys2Proof.Machine
end

section
/-! PROOFS. The measurement synthesizer's obligations (spec/42_measurement_synthesizer.md section 6): humidity packing (R160, R161),
unpacking (R162), and that no packing shows the lowest bit of a code, so that the tie rule stays unseen (R156). -/

namespace Sys2Proof.Machine

/-! ## Humidity packing (R157, R160, R161) -/

theorem humidityBits_of_modeOf (ur : Byte) :
    modeOf ur = 0x00#8 ∧ humidityBits (modeOf ur) = 12 ∨ modeOf ur = 0x01#8 ∧ humidityBits (modeOf ur) = 8 ∨
      modeOf ur = 0x80#8 ∧ humidityBits (modeOf ur) = 10 ∨ modeOf ur = 0x81#8 ∧ humidityBits (modeOf ur) = 11 := by
  rcases modeOf_cases ur with h | h | h | h <;> rw [h] <;> decide

theorem humidityBits_bounds (mode : Byte) : 8 ≤ humidityBits mode ∧ humidityBits mode ≤ 12 := by
  unfold humidityBits
  split_ifs <;> decide

/-- With all 8 bits in the high byte, the low byte holds none. -/
theorem packWidth_eight (c : Code) : packWidth 8 c = ⟨trunc8 (c >>> 8), 0x00#8⟩ := by
  have hmasked : (c >>> 8) &&& 0#16 = 0#16 := BitVec.and_zero
  exact congrArg₂ Packed.mk rfl (congrArg (fun v : Code => trunc8 (v <<< 8)) hmasked)

/-- R160 in each mode is R158 at the width of the mode, with the status pattern added. -/
theorem packHum_eq_packWidth (c : Code) (mode : Byte) :
    packHum c mode = ⟨(packWidth (humidityBits mode) c).hi, (packWidth (humidityBits mode) c).lo + humidityStatus⟩ := by
  unfold packHum humidityBits
  split_ifs
  · rfl
  · rw [packWidth_eight]
    rfl
  · rfl
  · rfl

section
variable {n : Nat} (hlo : 8 ≤ n) (hhi : n ≤ 16) (c : Code)
include hlo hhi

/-- Below the justified bits the low byte has room for any pattern of `16 - n` bits. -/
theorem packWidth_lo_room : (packWidth n c).lo.toNat + 2 ^ (16 - n) ≤ 256 := by
  have hbyte : 2 ^ (n - 8) * 2 ^ (16 - n) = 256 := by rw [← pow_add, show n - 8 + (16 - n) = 8 by omega]; rfl
  have hbits : c.toNat / 2 ^ (16 - n) % 2 ^ (n - 8) + 1 ≤ 2 ^ (n - 8) := Nat.mod_lt _ (Nat.two_pow_pos _)
  calc (packWidth n c).lo.toNat + 2 ^ (16 - n)
      = (c.toNat / 2 ^ (16 - n) % 2 ^ (n - 8) + 1) * 2 ^ (16 - n) := by
        rw [packWidth_lo_toNat hlo hhi, Nat.add_mul, Nat.one_mul]
    _ ≤ 2 ^ (n - 8) * 2 ^ (16 - n) := Nat.mul_le_mul_right _ hbits
    _ = 256 := hbyte

end

/-- Of the low byte's bits at least the lowest four are below those of the code. -/
theorem sixteen_le_two_pow_dropped (mode : Byte) : 16 ≤ 2 ^ (16 - humidityBits mode) := by
  have hmax := (humidityBits_bounds mode).2
  exact Nat.pow_le_pow_right (show 0 < 2 by decide) (show 4 ≤ 16 - humidityBits mode by omega)

theorem packHum_lo_toNat (c : Code) (mode : Byte) :
    (packHum c mode).lo.toNat =
      c.toNat / 2 ^ (16 - humidityBits mode) % 2 ^ (humidityBits mode - 8) * 2 ^ (16 - humidityBits mode) + 2 := by
  obtain ⟨hlo, hhi⟩ := humidityBits_bounds mode
  have hroom := packWidth_lo_room hlo (by omega) c
  have hdropped := sixteen_le_two_pow_dropped mode
  have hstatus : humidityStatus.toNat = 2 := rfl
  rw [packHum_eq_packWidth, ← packWidth_lo_toNat hlo (by omega), BitVec.toNat_add, hstatus]
  omega

theorem packHum_hi (c : Code) (mode : Byte) : (packHum c mode).hi = (packWidth (humidityBits mode) c).hi := by
  rw [packHum_eq_packWidth]

theorem packHum_statusBits (c : Code) (mode : Byte) : statusBits (packHum c mode) = 0b10#2 := by
  have hmax := (humidityBits_bounds mode).2
  have hdvd : 4 ∣ 2 ^ (16 - humidityBits mode) := pow_dvd_pow 2 (show 2 ≤ 16 - humidityBits mode by omega)
  obtain ⟨q, hq⟩ := hdvd.mul_left (c.toNat / 2 ^ (16 - humidityBits mode) % 2 ^ (humidityBits mode - 8))
  apply BitVec.eq_of_toNat_eq
  rw [statusBits, BitVec.toNat_setWidth, packHum_lo_toNat, hq]
  simp only [BitVec.toNat_ofNat]
  omega

/-- Settles O38: in each mode the table is R158 at the width of the mode and the status pattern below its bits. -/
theorem humidityPackingTable : Obligations.HumidityPackingTable := by
  intro ur c
  obtain ⟨hlo, hhi⟩ := humidityBits_bounds (modeOf ur)
  have hdropped := sixteen_le_two_pow_dropped (modeOf ur)
  refine ⟨humidityBits_of_modeOf ur, ?_, ?_, packHum_lo_toNat c _, ?_, packHum_statusBits c _⟩
  · rw [packHum_hi, packWidth_hi_toNat hlo (by omega)]
  · rw [packHum_hi, packWidth_hi hlo (by omega)]
  · rw [packHum_lo_toNat, Nat.mul_comm]
    exact Nat.two_pow_add_eq_or_of_lt (by omega) _

/-! ## Unpacking (R162) -/

/-- A master that gets the bits of the code above `16 - n`, split at the byte, puts them together again, whatever stands below them in
the low byte. -/
theorem unpack_eq_shiftRight {n : Nat} {p : Packed} {c : Code}
    (hhi : p.hi.toNat = c.toNat / 2 ^ (16 - n) / 2 ^ (n - 8))
    (hlo : p.lo.toNat / 2 ^ (16 - n) = c.toNat / 2 ^ (16 - n) % 2 ^ (n - 8)) : unpack n p = c >>> (16 - n) := by
  have hcode : c.toNat / 2 ^ (16 - n) ≤ c.toNat := Nat.div_le_self _ _
  have hbits := c.isLt
  have hjoin : p.hi.toNat <<< (n - 8) + p.lo.toNat / 2 ^ (16 - n) = c.toNat / 2 ^ (16 - n) := by
    rw [hhi, hlo, Nat.shiftLeft_eq, Nat.div_add_mod']
  have hbelow : p.lo.toNat / 2 ^ (16 - n) < 2 ^ (n - 8) := hlo ▸ Nat.mod_lt _ (Nat.two_pow_pos _)
  have hbyte : ∀ b : Byte, b.toNat % 2 ^ 16 = b.toNat := fun b => Nat.mod_eq_of_lt (by have := b.isLt; omega)
  apply BitVec.eq_of_toNat_eq
  rw [unpack, BitVec.toNat_or, BitVec.toNat_shiftLeft, BitVec.toNat_ushiftRight, BitVec.toNat_ushiftRight, BitVec.toNat_setWidth,
    BitVec.toNat_setWidth, hbyte, hbyte, Nat.shiftRight_eq_div_pow, Nat.shiftRight_eq_div_pow, Nat.mod_eq_of_lt (by omega),
    ← Nat.shiftLeft_add_eq_or_of_lt hbelow, hjoin]

theorem unpack_packTemp (c : Code) (mode : Byte) :
    unpack (temperatureBits mode) (packTemp c mode) = c >>> (16 - temperatureBits mode) := by
  obtain ⟨hlo, hhi⟩ := temperatureBits_bounds mode
  rw [packTemp_eq_packWidth]
  refine unpack_eq_shiftRight (packWidth_hi_toNat (by omega) (by omega) c) ?_
  rw [packWidth_lo_toNat (by omega) (by omega), Nat.mul_div_cancel _ (Nat.two_pow_pos _)]

theorem unpack_packHum (c : Code) (mode : Byte) :
    unpack (humidityBits mode) (packHum c mode) = c >>> (16 - humidityBits mode) := by
  obtain ⟨hlo, hhi⟩ := humidityBits_bounds mode
  have hdropped := sixteen_le_two_pow_dropped mode
  refine unpack_eq_shiftRight (by rw [packHum_hi, packWidth_hi_toNat hlo (by omega)]) ?_
  rw [packHum_lo_toNat, Nat.mul_comm, Nat.mul_add_div (by omega),
    Nat.div_eq_of_lt (show 2 < 2 ^ (16 - humidityBits mode) by omega), Nat.add_zero]

theorem sub_shiftRight_mul_lt (c : Code) (k : Nat) : c.toNat - (c >>> k).toNat * 2 ^ k < 2 ^ k := by
  have hsplit := Nat.div_add_mod' c.toNat (2 ^ k)
  have hlt := Nat.mod_lt c.toNat (Nat.two_pow_pos k)
  rw [BitVec.toNat_ushiftRight, Nat.shiftRight_eq_div_pow]
  omega

/-- Settles O39: what is unpacked is the code shifted down, and a shift loses less than the weight of its lowest kept bit. -/
theorem packUnpackRecoversTheCode : Obligations.PackUnpackRecoversTheCode := by
  intro ur c
  rw [unpack_packTemp, unpack_packHum]
  exact ⟨rfl, rfl, sub_shiftRight_mul_lt c _, sub_shiftRight_mul_lt c _⟩

/-! ## No packing shows the lowest bit of a code -/

theorem packWidth_congr {n : Nat} {c c' : Code} (hn : n ≤ 15) (h : c.toNat / 2 = c'.toNat / 2) : packWidth n c = packWidth n c' := by
  have hshift : c >>> (16 - n) = c' >>> (16 - n) := by
    apply BitVec.eq_of_toNat_eq
    have hpow : 2 ^ (16 - n) = 2 * 2 ^ (15 - n) := by rw [← pow_succ', show 15 - n + 1 = 16 - n by omega]
    rw [BitVec.toNat_ushiftRight, BitVec.toNat_ushiftRight, Nat.shiftRight_eq_div_pow, Nat.shiftRight_eq_div_pow, hpow,
      ← Nat.div_div_eq_div_mul, ← Nat.div_div_eq_div_mul, h]
  rw [packWidth, packWidth, hshift]

theorem packTemp_congr {c c' : Code} (h : c.toNat / 2 = c'.toNat / 2) (mode : Byte) : packTemp c mode = packTemp c' mode := by
  have hmax := (temperatureBits_bounds mode).2
  rw [packTemp_eq_packWidth, packTemp_eq_packWidth, packWidth_congr (by omega) h]

theorem packHum_congr {c c' : Code} (h : c.toNat / 2 = c'.toNat / 2) (mode : Byte) : packHum c mode = packHum c' mode := by
  have hmax := (humidityBits_bounds mode).2
  rw [packHum_eq_packWidth, packHum_eq_packWidth, packWidth_congr (by omega) h]

/-! ## The tie rule (R156) -/

/-- A tie goes to one of two neighbours, of which the even one is the lower, or both rules choose the same. -/
theorem roundReal_div_two (ties : RoundTies) (x : REAL) : roundReal ties x / 2 = roundReal .halfUp x / 2 := by
  cases ties with
  | halfUp => rfl
  | halfEven =>
    by_cases htie : x - x.floor = 1 / 2
    · have hx : x + 1 / 2 = ((x.floor + 1 : Int) : REAL) := by push_cast; linarith
      have hup : (x + 1 / 2).floor = x.floor + 1 := by rw [hx, Rat.floor_intCast]
      simp only [roundReal, if_pos htie, hup]
      split_ifs with heven <;> omega
    · simp only [roundReal, if_neg htie]

/-- Under the exact REAL all but the lowest bit of a code is that of the half-up rounding. -/
theorem tempCode16_div_two {p : Params} (h : p.real = .exact) (k : Fin 10) (u : UnitReal) :
    (((tempCode16 p (temperatureOf k u)).toNat / 2 : Nat) : Int) = roundReal .halfUp (temperatureScaled (temperatureOf k u)) / 2 := by
  rw [Int.natCast_ediv, tempCode16_toNat, h, codeError, add_zero, ← roundReal_div_two p.roundTies]
  rfl

theorem humCode16_div_two {p : Params} (h : p.real = .exact) (mean : REAL) (k : Fin 10) (u : UnitReal) :
    (((humCode16 p (humidityOf mean k u)).toNat / 2 : Nat) : Int) =
      roundReal .halfUp (humidityScaled (humidityOf mean k u)) / 2 := by
  rw [Int.natCast_ediv, humCode16_toNat, h, codeError, add_zero, ← roundReal_div_two p.roundTies]
  rfl

/-- The state under another tie rule. -/
def withTies (ties : RoundTies) (s : State) : State :=
  { s with params := { s.params with roundTies := ties } }

theorem measuredTemperature_withTies {s : State} (h : s.params.real = .exact) (ties : RoundTies) :
    measuredTemperature (withTies ties s) = measuredTemperature s :=
  packTemp_congr (Int.ofNat_inj.mp ((tempCode16_div_two (p := (withTies ties s).params) h _ _).trans
    (tempCode16_div_two h _ _).symm)) _

theorem measuredHumidity_withTies {s : State} (h : s.params.real = .exact) (ties : RoundTies) :
    measuredHumidity (withTies ties s) = measuredHumidity s :=
  packHum_congr (Int.ofNat_inj.mp ((humCode16_div_two (p := (withTies ties s).params) h _ _ _).trans
    (humCode16_div_two h _ _ _).symm)) _

/-- Settles O36: a row sees the tie rule through the measured codes only, and the packing drops the bit in which they may differ. -/
theorem roundTiesAreUnobservable : Obligations.RoundTiesAreUnobservable := fun i s ties hexact =>
  ⟨_, _, exec_eq i s, exec_eq i (withTies ties s),
    nextRegs_congr (s := s) (s' := withTies ties s) rfl rfl rfl (measuredTemperature_withTies hexact ties)
      (measuredHumidity_withTies hexact ties) _,
    rfl, returned_congr rfl _, rfl⟩

/-! ## The reserved bits of the user register (R22, R23) -/

theorem modeOf_congr {v w : Byte} (h7 : v.getLsbD 7 = w.getLsbD 7) (h0 : v.getLsbD 0 = w.getLsbD 0) : modeOf v = modeOf w := by
  have hmask : ∀ i < 8, i ≠ 0 → i ≠ 7 → (0x81#8).getLsbD i = false := by decide
  apply BitVec.eq_of_getLsbD_eq
  intro i hi
  rw [modeOf, modeOf, BitVec.getLsbD_and, BitVec.getLsbD_and]
  by_cases hi0 : i = 0
  · rw [hi0, h0]
  by_cases hi7 : i = 7
  · rw [hi7, h7]
  · rw [hmask i hi hi0 hi7, Bool.and_false, Bool.and_false]

theorem measuredTemperature_setUser {v : Byte} {s : State} (h : modeOf v = modeOf s.regs.userRegister) :
    measuredTemperature (setUser v s) = measuredTemperature s := congrArg (packTemp _) h

theorem measuredHumidity_setUser {v : Byte} {s : State} (h : modeOf v = modeOf s.regs.userRegister) :
    measuredHumidity (setUser v s) = measuredHumidity s := congrArg (packHum _) h

/-- A measuring row reads the user register through its mode only. -/
theorem afterOp_setUser {v : Byte} {s : State} {i : Instr} (hmode : modeOf v = modeOf s.regs.userRegister)
    (hi : i.kind = .measuring) : afterOp i (setUser v s) = setUser v (afterOp i s) := by
  have htemp := measuredTemperature_setUser hmode
  have hhum := measuredHumidity_setUser hmode
  cases i with
  | rdMeasHm t | rdMeasPoll t =>
    simp only [afterOp, nextRegs, measuredRegs, htemp, hhum]
    rfl
  | _ => cases hi

/-- Settles O40: bits 7 and 0 are the mode (`modeOf_congr`). -/
theorem reservedBitsAffectNothing : Obligations.ReservedBitsAffectNothing := by
  intro v t s h7 h0 i hi
  obtain ⟨hkind, hwrite⟩ : i.kind = .measuring ∧ ∀ b, i ≠ .write b := by
    rcases hi with rfl | rfl <;> exact ⟨rfl, by simp⟩
  exact ⟨_, _, exec_eq_afterOp i s hwrite, exec_eq_afterOp i _ hwrite, afterOp_setUser (modeOf_congr h7 h0) hkind⟩

end Sys2Proof.Machine
end

section
/-! PROOFS. The obligations about the checksums (spec/43_crc_and_frame.md sections 1 and 2): the CRC is linear (R180), the XOR cancels
(R182, R184). -/

namespace Sys2Proof.Machine

/-! ## The CRC register (R180) -/

/-- What one shift adds where bit 7 is set: the polynomial. -/
def crcFeedback (top : Bool) : BitVec 9 :=
  if top then 0x131#9 else 0x000#9

theorem crcShift_eq (crc : Byte) : crcShift crc = trunc8 (((crc.setWidth 9) <<< 1) ^^^ crcFeedback (crc.getLsbD 7)) := by
  unfold crcShift crcFeedback
  split_ifs
  · rfl
  · exact congrArg (fun v : BitVec 9 => trunc8 v) BitVec.xor_zero.symm

theorem crcFeedback_xor (a b : Bool) : crcFeedback (a ^^ b) = crcFeedback a ^^^ crcFeedback b := by
  revert a b
  decide

theorem crcShift_xor (a b : Byte) : crcShift (a ^^^ b) = crcShift a ^^^ crcShift b := by
  rw [crcShift_eq, crcShift_eq, crcShift_eq, BitVec.getLsbD_xor, crcFeedback_xor, BitVec.setWidth_xor, BitVec.shiftLeft_xor_distrib,
    ← BitVec.setWidth_xor]
  congr 1
  ac_rfl

theorem crcShifts_xor (n : Nat) (a b : Byte) : crcShifts n (a ^^^ b) = crcShifts n a ^^^ crcShifts n b := by
  induction n generalizing a b with
  | zero => rfl
  | succ n ih => rw [crcShifts, crcShift_xor, ih, crcShifts, crcShifts]

theorem crcByte_xor (a b c d : Byte) : crcByte (a ^^^ b) (c ^^^ d) = crcByte a c ^^^ crcByte b d := by
  rw [crcByte, crcByte, crcByte, ← crcShifts_xor]
  congr 1
  ac_rfl

/-- A register holding the byte that comes in is cleared. -/
theorem crcByte_self (a : Byte) : crcByte a a = 0x00#8 := by
  rw [crcByte, BitVec.xor_self]
  decide

theorem foldl_crcByte_zipWith (s s' : List Byte) (h : s.length = s'.length) (a a' : Byte) :
    (List.zipWith (· ^^^ ·) s s').foldl crcByte (a ^^^ a') = s.foldl crcByte a ^^^ s'.foldl crcByte a' := by
  induction s generalizing s' a a' with
  | nil =>
    obtain rfl := List.length_eq_zero_iff.mp h.symm
    rfl
  | cons d s ih =>
    cases s' with
    | nil => cases h
    | cons d' s' =>
      rw [List.zipWith_cons_cons, List.foldl_cons, crcByte_xor]
      exact ih s' (Nat.succ.inj h) _ _

theorem crc8_replicate_zero (n : Nat) : crc8 (List.replicate n 0x00#8) = 0x00#8 := by
  induction n with
  | zero => rfl
  | succ n ih =>
    rw [crc8, List.replicate_succ, List.foldl_cons, crcByte_self]
    exact ih

theorem crc8_append_crc8 (s : List Byte) : crc8 (s ++ [crc8 s]) = 0x00#8 := by
  rw [crc8_append]
  exact crcByte_self _

/-- Settles O42: every shift is linear, the initial value is 0, and the CRC clears itself (`crcByte_self`). -/
theorem crcIsLinear : Obligations.CrcIsLinear :=
  ⟨fun a b h => foldl_crcByte_zipWith a b h 0x00#8 0x00#8, crc8_replicate_zero, crc8_append_crc8, by decide +kernel⟩

/-! ## The XOR (R182, R184) -/

theorem xorSum_perm {a b : List Byte} (h : a.Perm b) : xorSum a = xorSum b := by
  induction h with
  | nil => rfl
  | cons d _ ih => rw [xorSum_cons, xorSum_cons, ih]
  | swap d d' s =>
    rw [xorSum_cons, xorSum_cons, xorSum_cons, xorSum_cons, ← BitVec.xor_assoc, BitVec.xor_comm d' d, BitVec.xor_assoc]
  | trans _ _ ih ih' => exact ih.trans ih'

/-- Settles O43: XOR is its own inverse and commutes. -/
theorem frameChecksumCancels : Obligations.FrameChecksumCancels :=
  ⟨xorSum_append_buildResponse, fun _ _ => xorSum_perm, buildResponse_zeros⟩

end Sys2Proof.Machine
end

section
/-! PROOFS. The invariant of every operation boundary (spec/10_state.md section 2, spec/42_measurement_synthesizer.md section 6,
spec/43_crc_and_frame.md section 3): it holds at reset, and every step keeps it. -/

namespace Sys2Proof.Machine

/-! ## A measurement is in its range (R26, R27, R161, R163) -/

theorem packWidth_hi_eq_div {n : Nat} (hlo : 8 ≤ n) (hhi : n ≤ 16) (c : Code) : (packWidth n c).hi.toNat = c.toNat / 256 := by
  have hbyte : 2 ^ (16 - n) * 2 ^ (n - 8) = 256 := by rw [← pow_add, show 16 - n + (n - 8) = 8 by omega]; rfl
  rw [packWidth_hi_toNat hlo hhi, Nat.div_div_eq_div_mul, hbyte]

theorem measuredTemperature_range (s : State) :
    0x56 ≤ (measuredTemperature s).hi.toNat ∧ (measuredTemperature s).hi.toNat ≤ 0x7A ∧ statusBits (measuredTemperature s) = 0b00#2 := by
  obtain ⟨hmin, hmax⟩ := temperatureBits_bounds (modeOf s.regs.userRegister)
  obtain ⟨hlo, hhi⟩ := roundReal_temperature_bounds s.params.roundTies (int10Answer s) (unitAnswer (advanceRng s))
  obtain ⟨helo, hehi⟩ := codeError_bounds s.params.real
    (Config.tempCodeError (temperatureOf (int10Answer s) (unitAnswer (advanceRng s))))
  have hcode := tempCode16_toNat s.params (int10Answer s) (unitAnswer (advanceRng s))
  rw [measuredTemperature, packTemp_eq_packWidth, packWidth_hi_eq_div (by omega) (by omega)]
  exact ⟨by omega, by omega, packWidth_statusBits (by omega) (by omega) _ hmax⟩

theorem measuredHumidity_range (s : State) : 0x0E ≤ (measuredHumidity s).hi.toNat ∧ (measuredHumidity s).hi.toNat ≤ 0xD7 ∧
    statusBits (measuredHumidity s) = 0b10#2 := by
  obtain ⟨hmin, hmax⟩ := humidityBits_bounds (modeOf s.regs.userRegister)
  have hrange := roundReal_humidity_bounds s.params.roundTies s.regs.meanHumidity (int10Answer (advanceRng (advanceRng s)))
    (unitAnswer (advanceRng (advanceRng (advanceRng s))))
  have hcode := humCode16_toNat s.params s.regs.meanHumidity (int10Answer (advanceRng (advanceRng s)))
    (unitAnswer (advanceRng (advanceRng (advanceRng s))))
  have herror := codeError_bounds s.params.real (Config.humCodeError (humidityOf s.regs.meanHumidity
    (int10Answer (advanceRng (advanceRng s))) (unitAnswer (advanceRng (advanceRng (advanceRng s))))))
  rw [measuredHumidity, packHum_hi, packWidth_hi_eq_div hmin (by omega)]
  exact ⟨by omega, by omega, packHum_statusBits _ _⟩

/-! ## What a row may leave in the registers of the invariant -/

/-- The two codes are measured together, or read zero together (R125, R126, R35). -/
structure CodesInRange (r : Registers) : Prop where
  temperature : temperatureWord r.lastTemperatureCode
  humidity    : humidityWord r.lastHumidityCode
  together    : r.lastTemperatureCode = ⟨0x00#8, 0x00#8⟩ ↔ r.lastHumidityCode = ⟨0x00#8, 0x00#8⟩

theorem codesInRange_measured {r : Registers} {s : State} (htemp : r.lastTemperatureCode = measuredTemperature s)
    (hhum : r.lastHumidityCode = measuredHumidity s) : CodesInRange r := by
  obtain ⟨htlo, hthi, htstatus⟩ := measuredTemperature_range s
  obtain ⟨hhlo, hhhi, hhstatus⟩ := measuredHumidity_range s
  have htne : measuredTemperature s ≠ ⟨0x00#8, 0x00#8⟩ := fun h => by simp [h] at htlo
  have hhne : measuredHumidity s ≠ ⟨0x00#8, 0x00#8⟩ := fun h => by simp [h] at hhlo
  refine ⟨?_, ?_, ?_⟩
  · rw [htemp]
    exact .inr ⟨htlo, hthi, htstatus⟩
  · rw [hhum]
    exact .inr ⟨hhlo, hhhi, hhstatus⟩
  · rw [htemp, hhum]
    exact iff_of_false htne hhne

theorem nextRegs_codes {s : State} (h : CodesInRange s.regs) (i : Instr) : CodesInRange (nextRegs i s) := by
  obtain ⟨htemp, hhum, htogether⟩ := h
  cases i with
  | reset | rdSoftreset t => exact ⟨.inl rfl, .inl rfl, iff_of_true rfl rfl⟩
  | rdMeasHm t | rdMeasPoll t => exact codesInRange_measured (s := s) rfl rfl
  | _ => exact ⟨htemp, hhum, htogether⟩

theorem nextRegs_response {s : State} (h : responseShape s.params s.regs.pendingResponse) (i : Instr) :
    responseShape s.params (nextRegs i s).pendingResponse := by
  cases i with
  | reset | rdSoftreset t => exact .inl rfl
  | sdUserread t => exact .inr (.inl rfl)
  | rdMeasPoll t | sdMeasHm t => exact .inr (.inr (.inl rfl))
  | sdOcm2 t => exact .inr (.inr (.inr (.inl rfl)))
  | sdOcm1 t => exact .inr (.inr (.inr (.inr (.inl rfl))))
  | sdOther code t => exact .inr (.inr (.inr (.inr (.inr (buildResponse_length _ _)))))
  | _ => exact h

/-- R8 bounds the two byte sequences of the configuration, and with them every response. -/
theorem responseShape_length {p : Params} {r : List Byte} (hp : p.wf) (h : responseShape p r) : r.length ≤ 10 := by
  obtain ⟨hpayload, hreset⟩ := hp
  rcases h with rfl | h | h | h | h | h
  · exact hreset
  all_goals omega

theorem nextRegs_phase {s : State} (h : s.regs.state = .idle ∨ s.regs.state = .sendingData) (i : Instr) :
    (nextRegs i s).state = .idle ∨ (nextRegs i s).state = .sendingData := by
  cases i with
  | short b | write b | read count | setMeanHumidity v | getMeanHumidity => exact h
  | sdUserread t | sdMeasHm t | sdOcm1 t | sdOcm2 t | sdOther code t => exact .inr rfl
  | _ => exact .inl rfl

/-! ## The invariant -/

theorem Inv.afterOp {s : State} (h : Inv s) (i : Instr) : Inv (afterOp i s) := by
  have hresponse := nextRegs_response h.response i
  obtain ⟨htemp, hhum, htogether⟩ := nextRegs_codes ⟨h.temperature, h.humidity, h.together⟩ i
  exact ⟨h.params, nextRegs_phase h.phase i, hresponse, responseShape_length h.params hresponse, htemp, hhum, htogether⟩

/-- The invariant says nothing of the arrivals. -/
theorem Inv.withArrivals {s : State} (h : Inv s) (rest : List Arrival) : Inv { s with arrivals := rest } :=
  ⟨h.params, h.phase, h.response, h.capacity, h.temperature, h.humidity, h.together⟩

/-- Settles O56: a step is idle or one row of the table (`step_next`), and every row keeps the invariant. -/
theorem stepKeepsTheInvariant : Obligations.StepKeepsTheInvariant := by
  intro s u hinv hstep
  rcases step_next hstep with rfl | ⟨op, rest, rfl⟩
  · exact hinv
  · exact (hinv.withArrivals rest).afterOp _

/-- Settles O57: the response is `RESET_RESPONSE`, and both codes read zero. -/
theorem resetHasTheInvariant : Obligations.ResetHasTheInvariant where
  params := ⟨by decide, by decide⟩
  phase := .inl rfl
  response := .inl rfl
  capacity := by decide
  temperature := .inl rfl
  humidity := .inl rfl
  together := iff_of_true rfl rfl

end Sys2Proof.Machine
end

section
/-! PROOFS. The opcode table (spec/30_encoding.md section 8) names the row of the decoded command: a row's byte pattern asks for
the leading bytes of the frame (R89), and these tell the fields of a frame apart (R84). -/

namespace Sys2Proof

/-! ## A byte pattern asks for the leading bytes (R89) -/

theorem bigEndian_eq_ofDigits (b : List Byte) : bigEndian b = Nat.ofDigits 256 (b.reverse.map BitVec.toNat) := by
  induction b using List.reverseRecOn with
  | nil => rfl
  | append_singleton b d ih =>
    rw [bigEndian, List.foldl_append, ← bigEndian, ih, List.reverse_append, List.map_append, List.reverse_singleton,
      List.map_singleton, List.singleton_append, Nat.ofDigits_cons]
    simp only [List.foldl_cons, List.foldl_nil]
    omega

theorem toNat_lt_of_mem_digits (b : List Byte) : ∀ d ∈ b.reverse.map BitVec.toNat, d < 256 := by
  simp only [List.mem_map]
  rintro _ ⟨d, -, rfl⟩
  exact d.isLt

theorem bigEndian_lt (b : List Byte) : bigEndian b < 2 ^ (8 * b.length) := by
  have h := Nat.ofDigits_lt_base_pow_length (by decide : 1 < 256) (toNat_lt_of_mem_digits b)
  rw [← bigEndian_eq_ofDigits, List.length_map, List.length_reverse] at h
  rw [pow_mul]
  exact h

theorem bigEndian_inj {b b' : List Byte} (hlength : b.length = b'.length) (h : bigEndian b = bigEndian b') : b = b' := by
  rw [bigEndian_eq_ofDigits, bigEndian_eq_ofDigits] at h
  have hdigits := Nat.ofDigits_inj_of_len_eq (by decide : 1 < 256) (by simpa using hlength) (toNat_lt_of_mem_digits b)
    (toNat_lt_of_mem_digits b') h
  exact List.reverse_injective (List.map_injective_iff.mpr (fun _ _ => BitVec.eq_of_toNat_eq) hdigits)

/-- The pattern that asks for exactly the leading bytes `p`. -/
def Pattern.ofBytes (p : List Byte) : Pattern :=
  ⟨bigEndian p, 2 ^ (8 * p.length) - 1, p.length⟩

theorem Pattern.ofBytes_hits_iff {p b : List Byte} : (Pattern.ofBytes p).hits b = true ↔ p <+: b := by
  rw [Pattern.hits, Bool.and_eq_true, beq_iff_eq]
  change decide (p.length ≤ b.length) = true ∧ bigEndian (b.take p.length) &&& (2 ^ (8 * p.length) - 1) = bigEndian p ↔ _
  rw [decide_eq_true_eq, Nat.and_two_pow_sub_one_eq_mod]
  constructor
  · rintro ⟨hlength, hvalue⟩
    have htake : (b.take p.length).length = p.length := List.length_take_of_le hlength
    have hlt := bigEndian_lt (b.take p.length)
    rw [htake] at hlt
    rw [Nat.mod_eq_of_lt hlt] at hvalue
    rw [← bigEndian_inj htake hvalue]
    exact List.take_prefix _ _
  · rintro ⟨rest, rfl⟩
    exact ⟨by simp, by rw [List.take_left, Nat.mod_eq_of_lt (bigEndian_lt p)]⟩

theorem OpcodeRow.hits_eq (r : OpcodeRow) (l : FrameLayout) (b : List Byte) : r.hits l b = true ↔
    (r.minLen ≤ b.length ∧ r.pattern.hits b = true) ∧
      (l = .coded ∧ r.exclude.any (·.hits b) = false ∨ l = .positional ∧ r.coded = false) := by
  cases l <;> simp [OpcodeRow.hits]

/-- A row without an `exclude`, over the leading bytes `p`, in a layout it holds under. -/
theorem OpcodeRow.hits_iff {r : OpcodeRow} {l : FrameLayout} {p b : List Byte} (hb : 2 ≤ b.length)
    (hpattern : r.pattern = .ofBytes p) (hmin : r.minLen ≤ max 2 p.length) (hexclude : r.exclude = [])
    (hcoded : l = .coded ∨ r.coded = false) : r.hits l b = true ↔ p <+: b := by
  have hlayout : l = .coded ∧ r.exclude.any (·.hits b) = false ∨ l = .positional ∧ r.coded = false := by
    cases l with
    | coded => exact .inl ⟨rfl, by rw [hexclude]; rfl⟩
    | positional => exact .inr ⟨rfl, hcoded.resolve_left (by decide)⟩
  rw [OpcodeRow.hits_eq, hpattern, Pattern.ofBytes_hits_iff]
  refine ⟨fun h => h.1.2, fun h => ⟨⟨?_, h⟩, hlayout⟩⟩
  have := h.length_le
  omega

/-! ## Which register code a field begins with (R84) -/

/-- In either layout the register field determines its code. -/
theorem code_of_field {l : FrameLayout} {code code' : Code} {t t' : Tail} (h : codeFits l code t = true)
    (h' : codeFits l code' t' = true) (heq : codeBytes code ++ t.bytes = codeBytes code' ++ t'.bytes) : code = code' := by
  cases l with
  | coded =>
    have hparse : parseReg (codeBytes code ++ t.bytes) = some (code, t.bytes) :=
      parseReg_eq_some_iff.mpr ⟨by rwa [Tail.ofBytes_bytes], rfl⟩
    have hparse' : parseReg (codeBytes code' ++ t'.bytes) = some (code', t'.bytes) :=
      parseReg_eq_some_iff.mpr ⟨by rwa [Tail.ofBytes_bytes], rfl⟩
    rw [heq, hparse'] at hparse
    exact (congrArg Prod.fst (Option.some.inj hparse)).symm
  | positional =>
    obtain ⟨b, rfl⟩ := codeFits_positional_iff.mp h
    obtain ⟨b', rfl⟩ := codeFits_positional_iff.mp h'
    rw [codeBytes_zext16, codeBytes_zext16] at heq
    exact congrArg zext16 (List.cons.inj heq).1

/-- A byte that begins no two-byte code is a code before any tail. -/
theorem codeFits_zext16 {b : Byte} (h30 : b ≠ 0x30#8) (h2C : b ≠ 0x2C#8) (l : FrameLayout) (t : Tail) :
    codeFits l (zext16 b) t = true := by
  cases l with
  | coded => exact codeFits_coded_iff.mpr (.inr (.inr ⟨b, rfl, fun h => h30 h.1, fun h => h2C h.1⟩))
  | positional => exact codeFits_positional_iff.mpr ⟨b, rfl⟩

/-- The bytes of a code that fits before any tail begin the field of that code only. -/
theorem codeBytes_prefix_iff {l : FrameLayout} {code x : Code} {t : Tail} (h : codeFits l code t = true)
    (hx : ∀ t', codeFits l x t' = true) : codeBytes x <+: codeBytes code ++ t.bytes ↔ code = x := by
  constructor
  · rintro ⟨rest, hrest⟩
    exact code_of_field h (hx (Tail.ofBytes rest)) (by rw [Tail.bytes_ofBytes, hrest])
  · rintro rfl
    exact List.prefix_append _ _

theorem poll_prefix_iff {code : Code} {t : Tail} (h : codeFits .coded code t = true) :
    [0x2C#8, 0x06#8] <+: codeBytes code ++ t.bytes ↔ code = codeTempHumPoll :=
  codeBytes_prefix_iff (x := codeTempHumPoll) h fun _ => rfl

/-- The byte `2C` is the code of the HM measurement, or begins that of the poll. -/
theorem hm_prefix_iff {code : Code} {t : Tail} (h : codeFits .coded code t = true) :
    [0x2C#8] <+: codeBytes code ++ t.bytes ↔ code = codeTempHumHM ∨ code = codeTempHumPoll := by
  constructor
  · rintro ⟨rest, hrest⟩
    by_cases hpoll : rest.head? = some 0x06#8
    · obtain ⟨rest', rfl⟩ := List.head?_eq_some_iff.mp hpoll
      exact .inr ((poll_prefix_iff h).mp ⟨rest', hrest⟩)
    · have hhm : codeFits .coded codeTempHumHM (Tail.ofBytes rest) = true :=
        codeFits_coded_iff.mpr (.inr (.inr ⟨0x2C#8, rfl, by simp, by rw [Tail.bytes_ofBytes]; simp [hpoll]⟩))
      exact .inl (code_of_field h hhm (by rw [Tail.bytes_ofBytes, ← hrest]; rfl))
  · rintro (rfl | rfl)
    · exact ⟨t.bytes, rfl⟩
    · exact ⟨0x06#8 :: t.bytes, rfl⟩

/-! ## The first row, in file order -/

theorem find?_cons_mnemonic {l : FrameLayout} {b : List Byte} {r : OpcodeRow} {P : Prop} [Decidable P]
    (h : r.hits l b = true ↔ P) (rows : List OpcodeRow) :
    ((r :: rows).find? (·.hits l b)).map (·.mnemonic) =
      if P then some r.mnemonic else (rows.find? (·.hits l b)).map (·.mnemonic) := by
  split_ifs with hP
  · rw [List.find?_cons_of_pos (p := fun r : OpcodeRow => r.hits l b) (h.mpr hP), Option.map_some]
  · rw [List.find?_cons_of_neg (p := fun r : OpcodeRow => r.hits l b) (mt h.mp hP)]

/-! ## The ReceivingData rows -/

section
variable {r : OpcodeRow} {code : Code} {t : Tail}

theorem rdRow_prefix_iff {q : List Byte} (hpattern : r.pattern = .ofBytes ([0xF3#8, 0x2D#8] ++ q))
    (hmin : r.minLen ≤ max 2 ([0xF3#8, 0x2D#8] ++ q).length) (hexclude : r.exclude = []) :
    r.hits .coded (frame selReceivingData code t) = true ↔ q <+: codeBytes code ++ t.bytes := by
  rw [OpcodeRow.hits_iff (Laws.FrameLength.frame_length _ _ _) hpattern hmin hexclude (.inl rfl)]
  exact List.prefix_append_right_inj [0xF3#8, 0x2D#8]

theorem rdRow_hits_iff (hfits : codeFits .coded code t = true) {x : Code} (hx : ∀ t', codeFits .coded x t' = true)
    (hpattern : r.pattern = .ofBytes ([0xF3#8, 0x2D#8] ++ codeBytes x))
    (hmin : r.minLen ≤ max 2 ([0xF3#8, 0x2D#8] ++ codeBytes x).length) (hexclude : r.exclude = []) :
    r.hits .coded (frame selReceivingData code t) = true ↔ code = x :=
  (rdRow_prefix_iff hpattern hmin hexclude).trans (codeBytes_prefix_iff hfits hx)

end

/-- The ReceivingData rows are the branches of `rdCommand`, in the same order. -/
theorem find?_rdRows {code : Code} {t : Tail} (h : codeFits .coded code t = true) :
    ((rdRows ++ otherRows).find? (·.hits .coded (frame selReceivingData code t))).map (·.mnemonic) =
      some (rdCommand code t).mnemonic := by
  rw [rdRows]
  simp only [List.cons_append]
  rw [find?_cons_mnemonic (rdRow_hits_iff (x := codeSoftReset) h (fun _ => rfl) rfl (by decide) rfl),
    find?_cons_mnemonic (rdRow_hits_iff (x := codeUserWrite) h (fun _ => rfl) rfl (by decide) rfl),
    find?_cons_mnemonic (rdRow_hits_iff (x := codeUserRead) h (fun _ => rfl) rfl (by decide) rfl),
    find?_cons_mnemonic (rdRow_hits_iff (x := codeTempHumPoll) h (fun _ => rfl) rfl (by decide) rfl),
    find?_cons_mnemonic ((rdRow_prefix_iff (q := [0x2C#8]) rfl (by decide) rfl).trans (hm_prefix_iff h)),
    find?_cons_mnemonic (rdRow_hits_iff (x := codeOnChipMemory1) h (fun _ => rfl) rfl (by decide) rfl),
    find?_cons_mnemonic (rdRow_hits_iff (x := codeOnChipMemory2) h (fun _ => rfl) rfl (by decide) rfl),
    find?_cons_mnemonic (iff_true_intro ((rdRow_prefix_iff (q := []) rfl (by decide) rfl).mpr List.nil_prefix))]
  by_cases hpoll : code = codeTempHumPoll
  · subst hpoll
    rfl
  · simp only [hpoll, or_false, if_false, if_true, rdCommand, apply_ite Instr.mnemonic, apply_ite some]
    rfl

/-- Every ReceivingData row holds under CODED only and begins with `F3 2D`. -/
theorem rdRows_hits {r : OpcodeRow} (hr : r ∈ rdRows) {l : FrameLayout} {b : List Byte} (h : r.hits l b = true) :
    l = .coded ∧ [0xF3#8, 0x2D#8] <+: b := by
  have hrow : r.coded = true ∧ ∃ q, r.pattern = .ofBytes ([0xF3#8, 0x2D#8] ++ q) := by
    simp only [rdRows, List.mem_cons, List.not_mem_nil, or_false] at hr
    rcases hr with rfl | rfl | rfl | rfl | rfl | rfl | rfl | rfl
    · exact ⟨rfl, [0x30#8, 0xA2#8], rfl⟩
    · exact ⟨rfl, [0xE6#8], rfl⟩
    · exact ⟨rfl, [0xE7#8], rfl⟩
    · exact ⟨rfl, [0x2C#8, 0x06#8], rfl⟩
    · exact ⟨rfl, [0x2C#8], rfl⟩
    · exact ⟨rfl, [0xFA#8], rfl⟩
    · exact ⟨rfl, [0xFC#8], rfl⟩
    · exact ⟨rfl, [], rfl⟩
  obtain ⟨hcoded, q, hpattern⟩ := hrow
  obtain ⟨⟨-, hhits⟩, ⟨rfl, -⟩ | ⟨-, hnot⟩⟩ := (OpcodeRow.hits_eq r l b).mp h
  · rw [hpattern, Pattern.ofBytes_hits_iff] at hhits
    exact ⟨rfl, (List.prefix_append _ q).trans hhits⟩
  · rw [hcoded] at hnot
    cases hnot

/-! ## The other rows -/

section
variable {l : FrameLayout} {r : OpcodeRow} {b0 : Byte} {code : Code} {t : Tail}

theorem otherRow_prefix_iff {x : Byte} {q : List Byte} (hpattern : r.pattern = .ofBytes (x :: q))
    (hmin : r.minLen ≤ max 2 (x :: q).length) (hexclude : r.exclude = []) (hcoded : r.coded = false) :
    r.hits l (frame (zext16 b0) code t) = true ↔ b0 = x ∧ q <+: codeBytes code ++ t.bytes := by
  rw [OpcodeRow.hits_iff (Laws.FrameLength.frame_length _ _ _) hpattern hmin hexclude (.inr hcoded), frame_zext16,
    List.cons_prefix_cons, eq_comm]

theorem sdRow_hits_iff (hfits : codeFits l code t = true) {x : Byte} (h30 : x ≠ 0x30#8) (h2C : x ≠ 0x2C#8)
    (hpattern : r.pattern = .ofBytes [0xFC#8, x]) (hmin : r.minLen = 2) (hexclude : r.exclude = []) (hcoded : r.coded = false) :
    r.hits l (frame (zext16 b0) code t) = true ↔ b0 = 0xFC#8 ∧ code = zext16 x := by
  have hminLen : r.minLen ≤ max 2 [0xFC#8, x].length := hmin.le
  rw [otherRow_prefix_iff hpattern hminLen hexclude hcoded, ← codeBytes_zext16 x,
    codeBytes_prefix_iff hfits (codeFits_zext16 h30 h2C l)]

/-- The `exclude` of SD.MEAS_HM leaves the code of the poll to SD.OTHER (R84); under POSITIONAL there is no such code. -/
theorem sdMeasHmRow_hits_iff (hfits : codeFits l code t = true) (hpattern : r.pattern = .ofBytes [0xFC#8, 0x2C#8])
    (hmin : r.minLen = 2) (hexclude : r.exclude = [.ofBytes [0xFC#8, 0x2C#8, 0x06#8]]) (hcoded : r.coded = false) :
    r.hits l (frame (zext16 b0) code t) = true ↔ b0 = 0xFC#8 ∧ code = codeTempHumHM := by
  have hlength := Laws.FrameLength.frame_length (zext16 b0) code t
  rw [frame_zext16] at hlength
  rw [OpcodeRow.hits_eq, hpattern, hmin, hexclude, hcoded, List.any_cons, List.any_nil, Bool.or_false, ← Bool.not_eq_true,
    Pattern.ofBytes_hits_iff, Pattern.ofBytes_hits_iff, frame_zext16, List.cons_prefix_cons, List.cons_prefix_cons,
    eq_comm (a := 0xFC#8)]
  cases l with
  | coded =>
    have hne : codeTempHumHM ≠ codeTempHumPoll := by decide
    rw [hm_prefix_iff hfits, poll_prefix_iff hfits]
    constructor
    · rintro ⟨⟨-, hb0, hcode⟩, ⟨-, hnotPoll⟩ | ⟨h, -⟩⟩
      · exact ⟨hb0, hcode.resolve_right fun hpoll => hnotPoll ⟨hb0, hpoll⟩⟩
      · cases h
    · rintro ⟨hb0, rfl⟩
      exact ⟨⟨hlength, hb0, .inl rfl⟩, .inl ⟨rfl, fun hpoll => hne hpoll.2⟩⟩
  | positional =>
    rw [show [0x2C#8] = codeBytes codeTempHumHM from rfl, codeBytes_prefix_iff hfits fun _ => rfl]
    exact ⟨fun h => h.1.2, fun h => ⟨⟨hlength, h⟩, .inr ⟨rfl, rfl⟩⟩⟩

theorem unkRow_hits (b : List Byte) (hb : 2 ≤ b.length) (hpattern : r.pattern = ⟨0, 0, 1⟩) (hmin : r.minLen = 2)
    (hexclude : r.exclude = []) (hcoded : r.coded = false) : r.hits l b = true := by
  rw [OpcodeRow.hits_eq, hpattern, hmin, hexclude, hcoded, Pattern.hits, Nat.and_zero]
  refine ⟨⟨hb, ?_⟩, ?_⟩
  · rw [Bool.and_eq_true, decide_eq_true_eq]
    exact ⟨Nat.le_of_succ_le hb, rfl⟩
  · cases l <;> simp

end

/-- The SendingData rows are the branches of `sdCommand`, and behind them the rows go by the state-select (R81). -/
theorem find?_otherRows {l : FrameLayout} {b0 : Byte} {code : Code} {t : Tail} (h : codeFits l code t = true) :
    (otherRows.find? (·.hits l (frame (zext16 b0) code t))).map (·.mnemonic) =
      some (command (.full (zext16 b0) code t)).mnemonic := by
  have hb := Laws.FrameLength.frame_length (zext16 b0) code t
  rw [otherRows, find?_cons_mnemonic (sdRow_hits_iff (x := 0xE7#8) h (by decide) (by decide) rfl rfl rfl rfl),
    find?_cons_mnemonic (sdMeasHmRow_hits_iff h rfl rfl rfl rfl),
    find?_cons_mnemonic (sdRow_hits_iff (x := 0xFA#8) h (by decide) (by decide) rfl rfl rfl rfl),
    find?_cons_mnemonic (sdRow_hits_iff (x := 0xFC#8) h (by decide) (by decide) rfl rfl rfl rfl),
    find?_cons_mnemonic (otherRow_prefix_iff (x := 0xFC#8) (q := []) rfl (by decide) rfl rfl),
    find?_cons_mnemonic (otherRow_prefix_iff (x := 0x00#8) (q := []) (by decide) (by decide) rfl rfl),
    find?_cons_mnemonic (iff_true_intro (unkRow_hits _ hb rfl rfl rfl rfl))]
  by_cases hsd : b0 = 0xFC#8
  · subst hsd
    change _ = some (sdCommand code t).mnemonic
    simp only [true_and, List.nil_prefix, if_true, sdCommand, apply_ite Instr.mnemonic, apply_ite some]
    rfl
  by_cases hidle : b0 = 0x00#8
  · subst hidle
    simp only [hsd, false_and, true_and, List.nil_prefix, if_true, if_false]
    rfl
  · rw [command_unrecognized (zext16_ne_selReceivingData b0) (fun h => hsd (zext16_inj.mp h)) (fun h => hidle (zext16_inj.mp h))]
    simp only [hsd, hidle, false_and, if_true, if_false]
    rfl

theorem find?_rdRows_of_byte {l : FrameLayout} {b0 : Byte} {code : Code} {t : Tail}
    (hF32D : ¬ (l = .coded ∧ b0 = 0xF3#8 ∧ code = 0x002D#16)) (h : codeFits l code t = true) :
    rdRows.find? (·.hits l (frame (zext16 b0) code t)) = none := by
  refine List.find?_eq_none.mpr fun r hr hhits => ?_
  obtain ⟨rfl, hprefix⟩ := rdRows_hits hr hhits
  rw [frame_zext16, List.cons_prefix_cons] at hprefix
  obtain ⟨hb0, hfield⟩ := hprefix
  have hcode := (codeBytes_prefix_iff (x := 0x002D#16) h (codeFits_zext16 (b := 0x2D#8) (by decide) (by decide) .coded)).mp hfield
  exact hF32D ⟨rfl, hb0.symm, hcode⟩

theorem tableMnemonic_frame {l : FrameLayout} {sel code : Code} {t : Tail} (h : FieldsFit l sel code t) :
    tableMnemonic l (frame sel code t) = some (command (.full sel code t)).mnemonic := by
  have hlength := Laws.FrameLength.frame_length sel code t
  rw [tableMnemonic, if_neg (by omega)]
  obtain ⟨⟨rfl, rfl⟩ | ⟨b0, rfl, hF32D⟩, hcode⟩ := h
  · exact find?_rdRows hcode
  · rw [List.find?_append, find?_rdRows_of_byte hF32D hcode]
    exact find?_otherRows hcode

/-- Settles O6: a frame is short, or `F3 2D`, or it spells fields that fit the layout (`fieldsFit_of_parseFrame`), whose row is that of
their command. -/
theorem decodeAgreesWithOpcodeTable : Obligations.DecodeAgreesWithOpcodeTable := by
  intro l b
  rw [decode]
  cases hparse : parseFrame l b with
  | short b? =>
    obtain rfl := short_of_parseFrame hparse
    cases b? <;> rfl
  | noRegister sel =>
    obtain ⟨rfl, rfl⟩ := noRegister_of_parseFrame hparse
    show tableMnemonic .coded [0xF3#8, 0x2D#8] = some "RD.OTHER"
    decide
  | full sel code t =>
    obtain ⟨hfit, rfl⟩ := fieldsFit_of_parseFrame hparse
    exact tableMnemonic_frame hfit

end Sys2Proof
end
